-- ==== Sys2Proof/Word.lean ====
section
/-! DEFINITION. The two widths of the machine (`00_scope.md` R4): 8-bit registers and memory bytes, 16-bit opcodes,
index register, program counter and stack slots. -/

namespace Sys2Proof

/-- `XLEN`: a general register, a timer, a memory byte, a frame-buffer byte, an RPL cell (R4). -/
abbrev Byte := BitVec 8

/-- `ILEN`, `I_WIDTH`, `PC_WIDTH`: an opcode, the index register, the program counter, a stack slot (R4). -/
abbrev Word := BitVec 16

end Sys2Proof
end

