-- ==== Sys2Proof/Syntax.lean ====
section
/-! DEFINITION. The instructions: one constructor per row of `spec/opcode_table.json` (`30_encoding.md` R75, R76). -/

namespace Sys2Proof

/-- The number of a general register V0..VF (`10_state.md` R21): the field `x` or `y` (R71). -/
abbrev Reg := Fin 16

/-- The 41 instructions. The pattern in each docstring is the normative name (R80). Operands are the fields of R71:
`x`, `y` register numbers, `n` a nibble, `nn` a byte, `nnn` a 12-bit address, all unsigned (R73). -/
inductive Instr where
  /-- 00E0 `CLS` (R100). -/
  | cls
  /-- 00EE `RET` (R110). -/
  | ret
  /-- 1NNN `JP nnn` (R111). -/
  | jp (nnn : BitVec 12)
  /-- 2NNN `CALL nnn` (R112). -/
  | call (nnn : BitVec 12)
  /-- 3XNN `SE Vx, nn` (R113). -/
  | seImm (x : Reg) (nn : Byte)
  /-- 4XNN `SNE Vx, nn` (R114). -/
  | sneImm (x : Reg) (nn : Byte)
  /-- 5XY0 `SE Vx, Vy` (R115). -/
  | seReg (x y : Reg)
  /-- 6XNN `LD Vx, nn` (R130). -/
  | ldImm (x : Reg) (nn : Byte)
  /-- 7XNN `ADD Vx, nn` (R131). -/
  | addImm (x : Reg) (nn : Byte)
  /-- 8XY0 `LD Vx, Vy` (R132). -/
  | ldReg (x y : Reg)
  /-- 8XY1 `OR Vx, Vy` (R133). -/
  | orReg (x y : Reg)
  /-- 8XY2 `AND Vx, Vy` (R134). -/
  | andReg (x y : Reg)
  /-- 8XY3 `XOR Vx, Vy` (R135). -/
  | xorReg (x y : Reg)
  /-- 8XY4 `ADD Vx, Vy` (R136). -/
  | addReg (x y : Reg)
  /-- 8XY5 `SUB Vx, Vy` (R137). -/
  | sub (x y : Reg)
  /-- 8XY6 `SHR Vx, Vy` (R138). -/
  | shr (x y : Reg)
  /-- 8XY7 `SUBN Vx, Vy` (R139). -/
  | subn (x y : Reg)
  /-- 8XYE `SHL Vx, Vy` (R140). -/
  | shl (x y : Reg)
  /-- 9XY0 `SNE Vx, Vy` (R116). -/
  | sneReg (x y : Reg)
  /-- ANNN `LD I, nnn` (R150). -/
  | ldI (nnn : BitVec 12)
  /-- BNNN `JP V0, nnn` (R117). -/
  | jpV0 (nnn : BitVec 12)
  /-- CXNN `RND Vx, nn` (R141). -/
  | rnd (x : Reg) (nn : Byte)
  /-- DXYN `DRW Vx, Vy, n` (R101). -/
  | drw (x y : Reg) (n : BitVec 4)
  /-- EX9E `SKP Vx` (R170). -/
  | skp (x : Reg)
  /-- EXA1 `SKNP Vx` (R171). -/
  | sknp (x : Reg)
  /-- FX07 `LD Vx, DT` (R172). -/
  | ldVxDt (x : Reg)
  /-- FX0A `LD Vx, K` (R173). -/
  | ldVxK (x : Reg)
  /-- FX15 `LD DT, Vx` (R174). -/
  | ldDtVx (x : Reg)
  /-- FX18 `LD ST, Vx` (R175). -/
  | ldStVx (x : Reg)
  /-- FX1E `ADD I, Vx` (R151). -/
  | addI (x : Reg)
  /-- FX29 `LD F, Vx` (R152). -/
  | ldF (x : Reg)
  /-- FX33 `LD B, Vx` (R153). -/
  | ldB (x : Reg)
  /-- FX55 `LD [I], Vx` (R154). -/
  | storeRegs (x : Reg)
  /-- FX65 `LD Vx, [I]` (R155). -/
  | loadRegs (x : Reg)
  /-- 00CN `SCD n`, SUPER-CHIP (R190). -/
  | scd (n : BitVec 4)
  /-- 00FB `SCR`, SUPER-CHIP (R191). -/
  | scr
  /-- 00FD `EXIT`, SUPER-CHIP (R192). -/
  | exit
  /-- 00FE `LOW`, SUPER-CHIP (R193). -/
  | low
  /-- 00FF `HIGH`, SUPER-CHIP (R194). -/
  | high
  /-- FX75 `LD R, Vx`, SUPER-CHIP (R195). -/
  | saveRpl (x : Reg)
  /-- FX85 `LD Vx, R`, SUPER-CHIP (R196). -/
  | restoreRpl (x : Reg)
  deriving DecidableEq, Repr

end Sys2Proof
end

