-- ==== Sys2Proof/WellFormed.lean ====
section
/-! DEFINITION. Which instructions exist in a configuration. The ranges of the fields (R71) are in the types of `Instr`;
what is left to check is the gate of `45_superchip.md` R197. -/

namespace Sys2Proof

/-- The instruction belongs to the SUPER-CHIP table (`30_encoding.md` R76). -/
def Instr.isSchip : Instr → Bool
  | .scd _ | .scr | .exit | .low | .high | .saveRpl _ | .restoreRpl _ => true
  | .cls | .ret | .jp _ | .call _ | .seImm _ _ | .sneImm _ _ | .seReg _ _ | .ldImm _ _ | .addImm _ _
  | .ldReg _ _ | .orReg _ _ | .andReg _ _ | .xorReg _ _ | .addReg _ _ | .sub _ _ | .shr _ _ | .subn _ _
  | .shl _ _ | .sneReg _ _ | .ldI _ | .jpV0 _ | .rnd _ _ | .drw _ _ _ | .skp _ | .sknp _ | .ldVxDt _
  | .ldVxK _ | .ldDtVx _ | .ldStVx _ | .addI _ | .ldF _ | .ldB _ | .storeRegs _ | .loadRegs _ => false

/-- `i` is an instruction of a machine whose `Q_SCHIP` is `schip`: a SUPER-CHIP instruction "exists only when `Q_SCHIP`
is true" (R197); a base instruction always does (R75). -/
def Instr.wellFormed (schip : Bool) (i : Instr) : Bool := schip || !i.isSchip

end Sys2Proof
end

