-- ==== Sys2Proof/Decode.lean ====
section
/-! DEFINITION. The decoder, table by table as `30_encoding.md` R74 to R77 give it, and the encoder beside it. -/

namespace Sys2Proof

/-! ## Fields (R71) -/

/-- `x = op[11:8]`. -/
def fieldX (op : Word) : Reg := (op.extractLsb' 8 4).toFin

/-- `y = op[7:4]`. -/
def fieldY (op : Word) : Reg := (op.extractLsb' 4 4).toFin

/-- `n = op[3:0]`. -/
def fieldN (op : Word) : BitVec 4 := op.extractLsb' 0 4

/-- `nn = op[7:0]`. -/
def fieldNN (op : Word) : Byte := op.extractLsb' 0 8

/-- `nnn = op[11:0]`. -/
def fieldNNN (op : Word) : BitVec 12 := op.extractLsb' 0 12

/-- The opcode formed from two consecutive bytes, high byte first (R53, R70). -/
def joinBytes (hi lo : Byte) : Word := hi ++ lo

/-- The first byte of an opcode in memory (R53). -/
def highByte (op : Word) : Byte := op.extractLsb' 8 8

/-- The second byte of an opcode in memory (R53). -/
def lowByte (op : Word) : Byte := op.extractLsb' 0 8

/-! ## The two opcode tables -/

/-- One row of an opcode table: it matches `op` when `(op & mask) == value`, and `build` reads the row's operands. -/
structure Row where
  mask : Word
  value : Word
  build : Word → Instr

/-- `(op & mask) == match` (R74). -/
def Row.matchesWord (r : Row) (op : Word) : Bool := (op &&& r.mask) == r.value

/-- The base table (R75): 34 rows, always enabled. -/
def baseTable : List Row :=
  [ ⟨0xFFFF, 0x00E0, fun _ => .cls⟩,
    ⟨0xFFFF, 0x00EE, fun _ => .ret⟩,
    ⟨0xF000, 0x1000, fun op => .jp (fieldNNN op)⟩,
    ⟨0xF000, 0x2000, fun op => .call (fieldNNN op)⟩,
    ⟨0xF000, 0x3000, fun op => .seImm (fieldX op) (fieldNN op)⟩,
    ⟨0xF000, 0x4000, fun op => .sneImm (fieldX op) (fieldNN op)⟩,
    ⟨0xF00F, 0x5000, fun op => .seReg (fieldX op) (fieldY op)⟩,
    ⟨0xF000, 0x6000, fun op => .ldImm (fieldX op) (fieldNN op)⟩,
    ⟨0xF000, 0x7000, fun op => .addImm (fieldX op) (fieldNN op)⟩ ] ++
  [ ⟨0xF00F, 0x8000, fun op => .ldReg (fieldX op) (fieldY op)⟩,
    ⟨0xF00F, 0x8001, fun op => .orReg (fieldX op) (fieldY op)⟩,
    ⟨0xF00F, 0x8002, fun op => .andReg (fieldX op) (fieldY op)⟩,
    ⟨0xF00F, 0x8003, fun op => .xorReg (fieldX op) (fieldY op)⟩,
    ⟨0xF00F, 0x8004, fun op => .addReg (fieldX op) (fieldY op)⟩,
    ⟨0xF00F, 0x8005, fun op => .sub (fieldX op) (fieldY op)⟩,
    ⟨0xF00F, 0x8006, fun op => .shr (fieldX op) (fieldY op)⟩,
    ⟨0xF00F, 0x8007, fun op => .subn (fieldX op) (fieldY op)⟩,
    ⟨0xF00F, 0x800E, fun op => .shl (fieldX op) (fieldY op)⟩,
    ⟨0xF00F, 0x9000, fun op => .sneReg (fieldX op) (fieldY op)⟩ ] ++
  [ ⟨0xF000, 0xA000, fun op => .ldI (fieldNNN op)⟩,
    ⟨0xF000, 0xB000, fun op => .jpV0 (fieldNNN op)⟩,
    ⟨0xF000, 0xC000, fun op => .rnd (fieldX op) (fieldNN op)⟩,
    ⟨0xF000, 0xD000, fun op => .drw (fieldX op) (fieldY op) (fieldN op)⟩,
    ⟨0xF0FF, 0xE09E, fun op => .skp (fieldX op)⟩,
    ⟨0xF0FF, 0xE0A1, fun op => .sknp (fieldX op)⟩,
    ⟨0xF0FF, 0xF007, fun op => .ldVxDt (fieldX op)⟩,
    ⟨0xF0FF, 0xF00A, fun op => .ldVxK (fieldX op)⟩,
    ⟨0xF0FF, 0xF015, fun op => .ldDtVx (fieldX op)⟩,
    ⟨0xF0FF, 0xF018, fun op => .ldStVx (fieldX op)⟩,
    ⟨0xF0FF, 0xF01E, fun op => .addI (fieldX op)⟩,
    ⟨0xF0FF, 0xF029, fun op => .ldF (fieldX op)⟩,
    ⟨0xF0FF, 0xF033, fun op => .ldB (fieldX op)⟩,
    ⟨0xF0FF, 0xF055, fun op => .storeRegs (fieldX op)⟩,
    ⟨0xF0FF, 0xF065, fun op => .loadRegs (fieldX op)⟩ ]

/-- The SUPER-CHIP table (R76): 7 rows, consulted only when the base table has no match and `Q_SCHIP` is true. -/
def schipTable : List Row :=
  [ ⟨0xFFF0, 0x00C0, fun op => .scd (fieldN op)⟩,
    ⟨0xFFFF, 0x00FB, fun _ => .scr⟩,
    ⟨0xFFFF, 0x00FD, fun _ => .exit⟩,
    ⟨0xFFFF, 0x00FE, fun _ => .low⟩,
    ⟨0xFFFF, 0x00FF, fun _ => .high⟩,
    ⟨0xF0FF, 0xF075, fun op => .saveRpl (fieldX op)⟩,
    ⟨0xF0FF, 0xF085, fun op => .restoreRpl (fieldX op)⟩ ]

/-- The instruction of the first row of `table` that `op` matches. -/
def lookup (table : List Row) (op : Word) : Option Instr :=
  (table.find? (·.matchesWord op)).map (·.build op)

/-! ## The decoder -/

/-- Steps 5 to 8 of R74: the base table, then the SUPER-CHIP table if `schip` (the input `Q_SCHIP`). `none` is
UnknownOpcode (R77). The exactness of the rows is the spec's (D14, D15, log 16). -/
def decode (schip : Bool) (op : Word) : Option Instr :=
  match lookup baseTable op with
  | some i => some i
  | none => if schip then lookup schipTable op else none

/-- What the decoder says of a byte sequence: an instruction and the bytes behind it, or a rejection by name. -/
inductive Decoded where
  /-- The instruction at the front and the rest of the bytes. -/
  | instr (i : Instr) (rest : List Byte)
  /-- The first two bytes form an opcode no row matches (R77). -/
  | unknownOpcode (op : Word)
  /-- Fewer than the two bytes of an instruction are left (R70). -/
  | truncated
  deriving DecidableEq, Repr

/-- The decoder on bytes as memory holds them: two bytes, high byte first (R53). -/
def decodeBytes (schip : Bool) : List Byte → Decoded
  | hi :: lo :: rest =>
    match decode schip (joinBytes hi lo) with
    | some i => .instr i rest
    | none => .unknownOpcode (joinBytes hi lo)
  | [] => .truncated
  | [_] => .truncated

/-! ## The encoder (R72, R75, R76) -/

/-- The 4 bits of a register field. -/
def regBits (r : Reg) : BitVec 4 := BitVec.ofFin r

/-- The opcode of an instruction: bits 15:12, then its format's fields (R72). -/
def encode : Instr → Word
  | .cls => 0x00E0
  | .ret => 0x00EE
  | .jp nnn => 0x1#4 ++ nnn
  | .call nnn => 0x2#4 ++ nnn
  | .seImm x nn => 0x3#4 ++ regBits x ++ nn
  | .sneImm x nn => 0x4#4 ++ regBits x ++ nn
  | .seReg x y => 0x5#4 ++ regBits x ++ regBits y ++ 0x0#4
  | .ldImm x nn => 0x6#4 ++ regBits x ++ nn
  | .addImm x nn => 0x7#4 ++ regBits x ++ nn
  | .ldReg x y => 0x8#4 ++ regBits x ++ regBits y ++ 0x0#4
  | .orReg x y => 0x8#4 ++ regBits x ++ regBits y ++ 0x1#4
  | .andReg x y => 0x8#4 ++ regBits x ++ regBits y ++ 0x2#4
  | .xorReg x y => 0x8#4 ++ regBits x ++ regBits y ++ 0x3#4
  | .addReg x y => 0x8#4 ++ regBits x ++ regBits y ++ 0x4#4
  | .sub x y => 0x8#4 ++ regBits x ++ regBits y ++ 0x5#4
  | .shr x y => 0x8#4 ++ regBits x ++ regBits y ++ 0x6#4
  | .subn x y => 0x8#4 ++ regBits x ++ regBits y ++ 0x7#4
  | .shl x y => 0x8#4 ++ regBits x ++ regBits y ++ 0xE#4
  | .sneReg x y => 0x9#4 ++ regBits x ++ regBits y ++ 0x0#4
  | .ldI nnn => 0xA#4 ++ nnn
  | .jpV0 nnn => 0xB#4 ++ nnn
  | .rnd x nn => 0xC#4 ++ regBits x ++ nn
  | .drw x y n => 0xD#4 ++ regBits x ++ regBits y ++ n
  | .skp x => 0xE#4 ++ regBits x ++ 0x9E#8
  | .sknp x => 0xE#4 ++ regBits x ++ 0xA1#8
  | .ldVxDt x => 0xF#4 ++ regBits x ++ 0x07#8
  | .ldVxK x => 0xF#4 ++ regBits x ++ 0x0A#8
  | .ldDtVx x => 0xF#4 ++ regBits x ++ 0x15#8
  | .ldStVx x => 0xF#4 ++ regBits x ++ 0x18#8
  | .addI x => 0xF#4 ++ regBits x ++ 0x1E#8
  | .ldF x => 0xF#4 ++ regBits x ++ 0x29#8
  | .ldB x => 0xF#4 ++ regBits x ++ 0x33#8
  | .storeRegs x => 0xF#4 ++ regBits x ++ 0x55#8
  | .loadRegs x => 0xF#4 ++ regBits x ++ 0x65#8
  | .scd n => 0x00C#12 ++ n
  | .scr => 0x00FB
  | .exit => 0x00FD
  | .low => 0x00FE
  | .high => 0x00FF
  | .saveRpl x => 0xF#4 ++ regBits x ++ 0x75#8
  | .restoreRpl x => 0xF#4 ++ regBits x ++ 0x85#8

/-- The two bytes of an instruction as memory holds them (R53). -/
def encodeBytes (i : Instr) : List Byte := [highByte (encode i), lowByte (encode i)]

/-! ## The opcode table's word -/

/-- The instruction the decoder reads from the table word `w` of `nbits` bits: one 16-bit word, laid out high byte
first (R53), with the SUPER-CHIP table enabled so that every row can be asked about. -/
def decodeTableWord (nbits w : Nat) : Option Instr :=
  let op : Word := BitVec.ofNat 16 w
  if w < 2 ^ nbits ∧ w < 65536 then
    match decodeBytes true [highByte op, lowByte op] with
    | .instr i _ => some i
    | .unknownOpcode _ => none
    | .truncated => none
  else none

end Sys2Proof
end

