-- ==== Sys2Proof/Config.lean ====
section
/-! DEFINITION. What is fixed at construction: the configuration inputs of `00_scope.md` R5, the open parameters of R6
and the free value `rand8`. -/

namespace Sys2Proof

/-- `DRAW_ROW_OVERFLOW` (R6, `40_display.md` R103): what DXYN does with a sprite row below row 31. -/
inductive RowOverflow where
  | wrap
  | clip
  | fault
  deriving DecidableEq, Repr

/-- The constant inputs of one machine (R5) and the open parameters (R6).
DESIGN CHOICE (log 1): they travel in the field `State.cfg`, so that every statement about all states is also about
every configuration; no step and no host operation writes them. -/
structure Config where
  /-- `Q_SHIFT`, inert (R5, D11). -/
  qShift : Bool
  /-- `Q_JUMP`, inert (R5, D12). -/
  qJump : Bool
  /-- `Q_LOADSTORE`, inert (R5, D13). -/
  qLoadStore : Bool
  /-- `Q_SCHIP`: the SUPER-CHIP table is consulted (R74, R197). -/
  qSchip : Bool
  /-- `FONT_BASE`: first address of the 80-byte font table (R6, R52). -/
  fontBase : Word
  /-- `FONT_TABLE`: the glyph bitmaps (R6, R52). -/
  fontTable : Vector Byte 80
  /-- `DRAW_ROW_OVERFLOW` (R6, R103). -/
  rowOverflow : RowOverflow
  /-- `RPL_INIT`: the RPL bank at power-on (R6, R36). -/
  rplInit : Vector Byte 8
  deriving DecidableEq, Repr

/-- The font table lies inside memory (R51: the loader writes all 80 bytes of it into `Mem`). -/
def Config.wf (c : Config) : Bool := decide (c.fontBase.toNat + 80 ≤ 4096)

/-- The default `FONT_TABLE` of `20_memory.md` R52, glyphs 0 to F, 5 bytes each.
PRESUMED (log 4): general knowledge of CHIP-8, not in the source; unsafe for claims that read a glyph byte. -/
def Config.standardFont : Vector Byte 80 :=
  #v[0xF0, 0x90, 0x90, 0x90, 0xF0,  0x20, 0x60, 0x20, 0x20, 0x70,
     0xF0, 0x10, 0xF0, 0x80, 0xF0,  0xF0, 0x10, 0xF0, 0x10, 0xF0,
     0x90, 0x90, 0xF0, 0x10, 0x10,  0xF0, 0x80, 0xF0, 0x10, 0xF0,
     0xF0, 0x80, 0xF0, 0x90, 0xF0,  0xF0, 0x10, 0x20, 0x40, 0x40,
     0xF0, 0x90, 0xF0, 0x90, 0xF0,  0xF0, 0x90, 0xF0, 0x10, 0xF0,
     0xF0, 0x90, 0xF0, 0x90, 0x90,  0xE0, 0x90, 0xE0, 0x90, 0xE0,
     0xF0, 0x80, 0x80, 0x80, 0xF0,  0xE0, 0x90, 0x90, 0x90, 0xE0,
     0xF0, 0x80, 0xF0, 0x80, 0xF0,  0xF0, 0x80, 0xF0, 0x80, 0x80]

/-- The configuration of the machine `State.reset` stands for: the defaults of R6, and SUPER-CHIP enabled.
DESIGN CHOICE (log 2), unsafe: the spec gives the four inputs no default; `Q_SCHIP` is true so that all 41
instructions can run from reset, the three inert inputs are false. -/
def Config.standard : Config where
  qShift := false
  qJump := false
  qLoadStore := false
  qSchip := true
  fontBase := 0x050
  fontTable := Config.standardFont
  rowOverflow := .wrap
  rplInit := Vector.replicate 8 0

/-- `rand8` (R6, R141, R223): the k-th draw of a run, a free value under no law.
DESIGN CHOICE (log 8), safe: no body, so no proof can see a value of it or relate two draws. -/
opaque Config.rand8 : Nat → Byte

end Sys2Proof
end

