-- ==== Sys2Proof/Machine/State.lean ====
section
/-! DEFINITION. The state of the machine: the thirteen elements of `10_state.md` R20, and three fields of the model's
own (the construction-time configuration, the count of random draws, and what the latest `cycle` returned). -/

namespace Sys2Proof.Machine

/-- The eight error kinds of `60_exceptions.md` R240. They are no stop: an operation that ends in `Err(kind)` leaves a
machine that goes on (R253), so they stand in a next state or in a host operation's reply. -/
inductive ErrorKind where
  /-- A word that matches no row of the opcode tables (R241). -/
  | unknownOpcode (op : Word)
  /-- 2NNN with `sp = 15` (R242). -/
  | stackOverflow
  /-- Raised by no rule (R243); kept so that the type is the source's. -/
  | invalidValueInRegister
  /-- Raised by the software around the hardware only (R244). -/
  | fileError
  /-- 00EE with `sp = 0` (R245). -/
  | noSubroutineToExit
  /-- `press` or `release` with a key above 15 (R246). -/
  | invalidKeycode
  /-- 00FD (R247). -/
  | programExited
  /-- FX75 or FX85 with `x > 7` (R248). -/
  | invalidRegisterReference
  deriving DecidableEq, Repr

/-- What a `cycle` returns to the host (R10, R212): `Ok` or `Err(kind)`. -/
inductive CycleResult where
  | ok
  | err (e : ErrorKind)
  deriving DecidableEq, Repr

/-- The array a fault names (R249). -/
inductive FaultArray where
  | mem
  | frameBuffer
  deriving DecidableEq, Repr

/-- Why the machine stops with a fault. -/
inductive Fault where
  /-- `Fault(AddressOutOfRange(array, index))` (R249, R56): raised by the fetch with `pc > 0x0FFE`, by DXYN, FX33, FX55
  and FX65 whose byte range passes 0xFFF, and by DXYN below row 31 when `DRAW_ROW_OVERFLOW = Fault`. Absorbing. Safe:
  the spec defines no behaviour after it, so nothing is claimed there. -/
  | addressOutOfRange (array : FaultArray) (index : Nat)
  deriving DecidableEq, Repr

/-- Why the model gives no meaning. -/
inductive Refusal where
  /-- `exec`'s answer for an instruction without a meaning; no instruction of this model is one. Safe. -/
  | notModelled (mnemonic : String)
  /-- Raised by the host operation `load` for a ROM of more than 3584 bytes (R211, D25). Safe: nothing is claimed. -/
  | romTooLong (length : Nat)
  deriving DecidableEq, Repr

/-- The memory `Mem` (R50): the bytes that differ from what memory holds after power-on, by address. Its canonical form
is `Memory.wf` (Ops.lean). -/
abbrev Memory := List Host.Cell

/-- The frame buffer `FB[0..255]` (R30): 8 bytes per row, 32 rows, most significant bit leftmost. -/
abbrev FrameBuffer := Vector Byte 256

/-- The complete state (R20). -/
structure State where
  /-- `Mem` (R50). -/
  mem : Memory
  /-- `V[0..15]`; `V[15]` is VF, the only flag (R21, R22). -/
  V : Vector Byte 16
  /-- The index register (R23). -/
  I : Word
  /-- The program counter; inside an instruction, the address of the next one (R24). -/
  pc : Word
  /-- The call stack's slots (R27). -/
  stack : Vector Word 16
  /-- The call stack's pointer, 0 when the stack is empty (R27). -/
  sp : Fin 16
  /-- The delay timer (R28). -/
  DT : Byte
  /-- The sound timer (R28). -/
  ST : Byte
  /-- `keys[k]` is true while key `k` is pressed (R29). -/
  keys : Vector Bool 16
  /-- The frame buffer (R30). -/
  FB : FrameBuffer
  /-- The display-mode flag, true for high resolution (R31). -/
  hires : Bool
  /-- The RPL flag store (R32). -/
  RPL : Vector Byte 8
  /-- The opcode most recently fetched (R33). -/
  IR : Word
  /-- The MODEL's own: the configuration inputs (R5) and open parameters (R6). Constant. DESIGN CHOICE (log 1). -/
  cfg : Config
  /-- The MODEL's own: how many draws `rand8` have been used (R223). DESIGN CHOICE (log 8). -/
  draws : Nat
  /-- The MODEL's own: what the latest `cycle` returned to the host (R10, R252: the hardware latches no error).
  DESIGN CHOICE (log 9). -/
  cycleResult : CycleResult
  deriving DecidableEq, Repr

/-- `PROG_BASE`: the reset value of `pc` and the address of the first ROM byte (R4). -/
def progBase : Nat := 0x200

/-- Power-on of a machine built with the configuration `c` (`70_reset_and_hazards.md` R270, `10_state.md` R35, R36):
RPL takes `RPL_INIT`, everything else its reset value; memory holds the font and zeros, which is what no listed cell
means. The zeros the source does not state are the spec's D31, D40, D16, D24 (log 10). -/
def State.powerOn (c : Config) : State where
  mem := []
  V := Vector.replicate 16 0
  I := 0
  pc := 0x200
  stack := Vector.replicate 16 0
  sp := 0
  DT := 0
  ST := 0
  keys := Vector.replicate 16 false
  FB := Vector.replicate 256 0
  hires := false
  RPL := c.rplInit
  IR := 0
  cfg := c
  draws := 0
  cycleResult := .ok

/-- The machine right after reset: power-on of the standard configuration (log 2). -/
def State.reset : State := State.powerOn Config.standard

end Sys2Proof.Machine
end

