-- ==== Sys2Proof/Machine/Ops.lean ====
section
/-! DEFINITION. The named operations over memory, registers, the call stack and the frame buffer, and the two ways an
instruction ends early: reporting an error (`raiseErr`) and faulting (`needBytes`). -/

namespace Sys2Proof.Machine

/-- What a step, or one instruction's meaning, answers. -/
abbrev Result := Host.Outcome State Fault Refusal

/-! ## Memory (`20_memory.md`) -/

/-- What an address reads as when no cell is listed for it: its content after power-on (R51), the font table at
`FONT_BASE` and zero elsewhere. -/
def initialByte (c : Config) (a : Nat) : Byte :=
  if c.fontBase.toNat ≤ a then c.fontTable[a - c.fontBase.toNat]?.getD 0 else 0

/-- The listed byte at address `a`, if any. -/
def Memory.find (a : Nat) : Memory → Option Byte
  | [] => none
  | (b, v) :: rest => if b = a then some v else Memory.find a rest

/-- One byte of memory. Defined by the spec for `a ≤ 0xFFF` (R56); instructions check their range with `needBytes`. -/
def Memory.read (c : Config) (m : Memory) (a : Nat) : Byte := (Memory.find a m).getD (initialByte c a)

/-- List `v` at `a`, keeping the addresses rising. -/
def Memory.insert (a : Nat) (v : Byte) : Memory → Memory
  | [] => [(a, v)]
  | (b, w) :: rest =>
    if a < b then (a, v) :: (b, w) :: rest
    else if a = b then (a, v) :: rest
    else (b, w) :: Memory.insert a v rest

/-- List nothing at `a`. -/
def Memory.erase (a : Nat) : Memory → Memory
  | [] => []
  | (b, w) :: rest => if b = a then Memory.erase a rest else (b, w) :: Memory.erase a rest

/-- Write one byte; writing the power-on content removes the cell, so that equal memories are equal lists. -/
def Memory.write (c : Config) (m : Memory) (a : Nat) (v : Byte) : Memory :=
  if v = initialByte c a then Memory.erase a m else Memory.insert a v m

/-- Write bytes at `a`, `a + 1`, ... in ascending order (R54). -/
def Memory.writeAll (c : Config) (m : Memory) (a : Nat) : List Byte → Memory
  | [] => m
  | v :: rest => Memory.writeAll c (Memory.write c m a v) (a + 1) rest

/-- The cells from address `lo` on: strictly rising, inside the 4096 bytes (R50), none equal to the power-on content. -/
def Memory.wfFrom (c : Config) (lo : Nat) : Memory → Bool
  | [] => true
  | (a, v) :: rest =>
    decide (lo ≤ a) && decide (a < 4096) && decide (v ≠ initialByte c a) && Memory.wfFrom c (a + 1) rest

/-- The canonical form of memory. -/
def Memory.wf (c : Config) (m : Memory) : Bool := Memory.wfFrom c 0 m

/-- `MemRead(a, 1)` for an address inside memory (R8, R57). -/
def State.readByte (s : State) (a : Nat) : Byte := Memory.read s.cfg s.mem a

/-- `MemWrite` of successive bytes inside memory (R8, R54). -/
def State.writeBytes (s : State) (a : Nat) (vs : List Byte) : State :=
  { s with mem := Memory.writeAll s.cfg s.mem a vs }

/-! ## Registers and the other elements (`10_state.md`) -/

/-- `V[r]` (R21). -/
def State.reg (s : State) (r : Reg) : Byte := s.V[r]

/-- `V[r] <- v` (R21). -/
def State.setReg (s : State) (r : Reg) (v : Byte) : State := { s with V := s.V.set r v }

/-- The number of VF, the flag (R22). -/
def vf : Reg := 15

/-- Replace the whole register file. -/
def State.setV (s : State) (v : Vector Byte 16) : State := { s with V := v }

def State.setI (s : State) (v : Word) : State := { s with I := v }

def State.setPc (s : State) (v : Word) : State := { s with pc := v }

def State.setDT (s : State) (v : Byte) : State := { s with DT := v }

def State.setST (s : State) (v : Byte) : State := { s with ST := v }

def State.setKeys (s : State) (v : Vector Bool 16) : State := { s with keys := v }

def State.setFB (s : State) (v : FrameBuffer) : State := { s with FB := v }

def State.setHires (s : State) (v : Bool) : State := { s with hires := v }

def State.setRPL (s : State) (v : Vector Byte 8) : State := { s with RPL := v }

def State.setIR (s : State) (v : Word) : State := { s with IR := v }

def State.setCycleResult (s : State) (v : CycleResult) : State := { s with cycleResult := v }

/-- One more draw has been used (R223). -/
def State.useDraw (s : State) : State := { s with draws := s.draws + 1 }

/-! ## Call stack (R27) -/

/-- `stack[k]`. -/
def State.slot (s : State) (k : Fin 16) : Word := s.stack[k]

/-- "increments pointer then stores" (R27): `sp <- sp + 1; stack[sp] <- v`. Used with `sp < 15`. -/
def State.push (s : State) (v : Word) : State :=
  let k : Fin 16 := s.sp + 1
  { s with sp := k, stack := s.stack.set k v }

/-- "reads then decrements" (R27): `pc <- stack[sp]; sp <- sp - 1`; the slot is left as it was. Used with `sp > 0`. -/
def State.pop (s : State) : State := { s with pc := s.slot s.sp, sp := s.sp - 1 }

/-! ## Frame buffer (R30) -/

/-- `FB[o]`; every offset an instruction forms is below 256. -/
def fbGet (fb : FrameBuffer) (o : Nat) : Byte := fb[o]?.getD 0

/-- `FB[o] <- v`. -/
def fbPut (fb : FrameBuffer) (o : Nat) (v : Byte) : FrameBuffer := fb.setIfInBounds o v

/-- The pixel at column `c` and row `r` (R30): bit `7 - (c mod 8)` of byte `FB[r*8 + c div 8]`. -/
def State.pixel (s : State) (c r : Nat) : Bool := (fbGet s.FB (r * 8 + c / 8)).getLsbD (7 - c % 8)

/-- The vector whose `k`-th element is `f k`. -/
def tabulate {α : Type} (n : Nat) (f : Fin n → α) : Vector α n := ⟨⟨List.ofFn f⟩, by simp⟩

/-! ## Ending an instruction -/

/-- `raise Err(e)` (R8, R10, R252): taking an error. Nothing is saved, no mode changes, `pc` stays where the fetch left
it; the only effect is the value the `cycle` returns. There is no vector and no handler (R252), and no return from an
error (R253): the next `cycle` simply fetches at `pc`. -/
def raiseErr (e : ErrorKind) (s : State) : Result := .next (s.setCycleResult (.err e))

/-- Do `k`, unless one of the `len` bytes from address `a` lies outside memory: then the fault of R56, raised before
any change (R56, R251). The index is the one the rules' pseudocode writes. -/
def needBytes (a len : Nat) (k : Result) : Result :=
  if 1 ≤ len ∧ 0xFFF < a + len - 1 then .fault (.addressOutOfRange .mem 0x1000) else k

/-- The conditional skip (R12, R26): the next 16-bit word is not executed when `b`. `pc` arithmetic is modulo 2^16 (R24). -/
def skipIf (b : Bool) (s : State) : Result := .next (if b then s.setPc (s.pc + 2) else s)

end Sys2Proof.Machine
end

