-- ==== Sys2Proof/Machine/Flags.lean ====
section
/-! DEFINITION. The flag computations. VF is the only flag, always 0 or 1, and always the last write of its instruction
(`10_state.md` R22, `42_alu.md` R142, D10; log 13). -/

namespace Sys2Proof.Machine

/-- A flag's value in VF. -/
def flagByte (b : Bool) : Byte := if b then 1 else 0

/-- Carry out of `a + b` (R136): the sum exceeds 255. -/
def carryOut (a b : Byte) : Bool := decide (255 < a.toNat + b.toNat)

/-- No borrow in `a - b` (R137): `a >= b`. -/
def noBorrow (a b : Byte) : Bool := decide (b.toNat ≤ a.toNat)

/-- The bit a right shift by one drops (R138): bit 0. -/
def shiftedOutRight (b : Byte) : Bool := b.getLsbD 0

/-- The bit a left shift by one drops (R140): bit 7. -/
def shiftedOutLeft (b : Byte) : Bool := b.getLsbD 7

/-- The addition of FX1E crosses 4096 (R151). -/
def crossesMemory (i : Word) (a : Byte) : Bool := decide (4096 ≤ i.toNat + a.toNat)

/-- Write VF (R22). -/
def State.setFlag (s : State) (b : Bool) : State := s.setReg vf (flagByte b)

/-- The write order of the flag-writing ALU instructions (R142): `V[x]`, then VF. -/
def State.setRegFlag (s : State) (x : Reg) (v : Byte) (flag : Bool) : State := (s.setReg x v).setFlag flag

end Sys2Proof.Machine
end

