-- ==== Sys2Proof/Machine/Operands.lean ====
section
/-! DEFINITION. The operand forms: how an instruction's fields and registers become values, addresses, keys and screen
positions (`30_encoding.md` R73 and the operand lines of the instruction rules). -/

namespace Sys2Proof.Machine

/-- `zext_16(nnn)` (R73). -/
def addressOf (nnn : BitVec 12) : Word := nnn.setWidth 16

/-- The target of BNNN (R117): `nnn + V[0]` modulo 2^16, whatever `Q_JUMP` is (D12). -/
def offsetTarget (nnn : BitVec 12) (v : Byte) : Word := nnn.setWidth 16 + v.setWidth 16

/-- The address of the first byte at the index register (R156). Byte `k` of an access is at this plus `k`, not reduced. -/
def State.base (s : State) : Nat := s.I.toNat

/-- The key a register names: its low 4 bits (R170, R171). -/
def keyOf (v : Byte) : Fin 16 := (v.extractLsb' 0 4).toFin

/-- `keys[k]` (R29). -/
def State.keyDown (s : State) (k : Fin 16) : Bool := s.keys[k]

/-- The least key that is down, if any (R173). -/
def State.lowestKey (s : State) : Option (Fin 16) := (List.finRange 16).find? fun k => s.keyDown k

/-- The value of a key number as a register holds it (R173). -/
def keyByte (k : Fin 16) : Byte := BitVec.ofNat 8 k.val

/-- The address of the glyph for the low nibble of `v` (R152): `FONT_BASE + 5 * (v & 0x0F)`; 5 bytes a glyph is D3. -/
def glyphAddress (c : Config) (v : Byte) : Word := c.fontBase + 5 * (v &&& 0x0F).setWidth 16

/-- The three decimal digits of a byte, hundreds first (R153). -/
def decimalDigits (v : Byte) : List Byte :=
  [BitVec.ofNat 8 (v.toNat / 100), BitVec.ofNat 8 (v.toNat / 10 % 10), BitVec.ofNat 8 (v.toNat % 10)]

/-- The registers `V[0..x]`, `x` included (R154). -/
def State.regsUpTo (s : State) (x : Reg) : List Byte := s.V.toList.take (x.val + 1)

/-- The start column of a sprite: `V[x] & 0x3F` (R101). -/
def startColumn (v : Byte) : Nat := (v &&& 0x3F).toNat

/-- The start row of a sprite: `V[y] & 0x1F` (R101). -/
def startRow (v : Byte) : Nat := (v &&& 0x1F).toNat

/-- The frame-buffer row that sprite row `row` of a sprite started at row `y0` is drawn on (R101, R103); `none` if it is
not drawn. Under `fault` no instruction gets as far as such a row. -/
def destRow (o : RowOverflow) (y0 row : Nat) : Option Nat :=
  if y0 + row ≤ 31 then some (y0 + row)
  else match o with
    | .wrap => some (y0 + row - 32)
    | .clip => none
    | .fault => none

end Sys2Proof.Machine
end

