-- ==== Sys2Proof/Machine/Alu.lean ====
section
/-! DEFINITION. Register load, arithmetic, logic, shift and random instructions (`42_alu.md`). All arithmetic is on
unsigned bytes modulo 256 (R143). -/

namespace Sys2Proof.Machine

/-- 6XNN `LD Vx, nn` (R130). -/
def execLdImm (x : Reg) (nn : Byte) (s : State) : Result := .next (s.setReg x nn)

/-- 7XNN `ADD Vx, nn` (R131): no flag. -/
def execAddImm (x : Reg) (nn : Byte) (s : State) : Result := .next (s.setReg x (s.reg x + nn))

/-- 8XY0 `LD Vx, Vy` (R132). -/
def execLdReg (x y : Reg) (s : State) : Result := .next (s.setReg x (s.reg y))

/-- 8XY1 `OR Vx, Vy` (R133): no flag. -/
def execOrReg (x y : Reg) (s : State) : Result := .next (s.setReg x (s.reg x ||| s.reg y))

/-- 8XY2 `AND Vx, Vy` (R134): no flag. -/
def execAndReg (x y : Reg) (s : State) : Result := .next (s.setReg x (s.reg x &&& s.reg y))

/-- 8XY3 `XOR Vx, Vy` (R135): no flag. -/
def execXorReg (x y : Reg) (s : State) : Result := .next (s.setReg x (s.reg x ^^^ s.reg y))

/-- 8XY4 `ADD Vx, Vy` (R136). -/
def execAddReg (x y : Reg) (s : State) : Result :=
  .next (s.setRegFlag x (s.reg x + s.reg y) (carryOut (s.reg x) (s.reg y)))

/-- 8XY5 `SUB Vx, Vy` (R137). -/
def execSub (x y : Reg) (s : State) : Result :=
  .next (s.setRegFlag x (s.reg x - s.reg y) (noBorrow (s.reg x) (s.reg y)))

/-- 8XY6 `SHR Vx, Vy` (R138): the source is `V[y]`, whatever `Q_SHIFT` is (D11). -/
def execShr (x y : Reg) (s : State) : Result :=
  .next (s.setRegFlag x (s.reg y >>> 1) (shiftedOutRight (s.reg y)))

/-- 8XY7 `SUBN Vx, Vy` (R139). -/
def execSubn (x y : Reg) (s : State) : Result :=
  .next (s.setRegFlag x (s.reg y - s.reg x) (noBorrow (s.reg y) (s.reg x)))

/-- 8XYE `SHL Vx, Vy` (R140): the source is `V[y]`, whatever `Q_SHIFT` is (D11). -/
def execShl (x y : Reg) (s : State) : Result :=
  .next (s.setRegFlag x (s.reg y <<< 1) (shiftedOutLeft (s.reg y)))

/-- CXNN with the draw `rand8` given (R141). -/
def rndWith (rand8 : Byte) (x : Reg) (nn : Byte) (s : State) : State := (s.setReg x (rand8 &&& nn)).useDraw

/-- CXNN `RND Vx, nn` (R141): the draw is the next free value of the run (R223, D28, log 8). -/
def execRnd (x : Reg) (nn : Byte) (s : State) : Result := .next (rndWith (Config.rand8 s.draws) x nn s)

end Sys2Proof.Machine
end

