-- ==== Sys2Proof/Machine/Control.lean ====
section
/-! DEFINITION. Control transfer (`41_control_flow.md`). On entry `pc` is the address of the instruction plus 2 (R24). -/

namespace Sys2Proof.Machine

/-- 00EE `RET` (R110): the check comes first (D5), and an error leaves `pc` and `sp` alone. -/
def execRet (s : State) : Result :=
  if s.sp = 0 then raiseErr .noSubroutineToExit s else .next s.pop

/-- 1NNN `JP nnn` (R111). -/
def execJp (nnn : BitVec 12) (s : State) : Result := .next (s.setPc (addressOf nnn))

/-- 2NNN `CALL nnn` (R112): the bound is enforced (D4), and an error means the call is not taken. -/
def execCall (nnn : BitVec 12) (s : State) : Result :=
  if s.sp = 15 then raiseErr .stackOverflow s else .next ((s.push s.pc).setPc (addressOf nnn))

/-- 3XNN `SE Vx, nn` (R113). -/
def execSeImm (x : Reg) (nn : Byte) (s : State) : Result := skipIf (s.reg x == nn) s

/-- 4XNN `SNE Vx, nn` (R114). -/
def execSneImm (x : Reg) (nn : Byte) (s : State) : Result := skipIf (s.reg x != nn) s

/-- 5XY0 `SE Vx, Vy` (R115). -/
def execSeReg (x y : Reg) (s : State) : Result := skipIf (s.reg x == s.reg y) s

/-- 9XY0 `SNE Vx, Vy` (R116). -/
def execSneReg (x y : Reg) (s : State) : Result := skipIf (s.reg x != s.reg y) s

/-- BNNN `JP V0, nnn` (R117). -/
def execJpV0 (nnn : BitVec 12) (s : State) : Result := .next (s.setPc (offsetTarget nnn (s.reg 0)))

end Sys2Proof.Machine
end

