-- ==== Sys2Proof/Machine/Display.lean ====
section
/-! DEFINITION. 00E0 and DXYN (`40_display.md`). -/

namespace Sys2Proof.Machine

/-- XOR the byte `b` into `FB[o]`; the flag beside the buffer collects whether a lit pixel was hit, by the pre-XOR byte
(R101). -/
def xorByte (c : FrameBuffer × Bool) (o : Nat) (b : Byte) : FrameBuffer × Bool :=
  (fbPut c.1 o (fbGet c.1 o ^^^ b), c.2 || (fbGet c.1 o &&& b) != 0)

/-- One sprite row `src` at frame-buffer row `r`, column `x0` (R101): the byte under the column, then the spill into the
next byte unless the sprite is aligned or starts in the row's last byte. Both take part in the collision (D9). -/
def drawRow (x0 : Nat) (c : FrameBuffer × Bool) (r : Nat) (src : Byte) : FrameBuffer × Bool :=
  let o := r * 8 + x0 / 8
  let shift := x0 % 8
  let c := xorByte c o (src >>> shift)
  if shift ≠ 0 ∧ x0 / 8 ≠ 7 then xorByte c (o + 1) (src <<< (8 - shift)) else c

/-- The sprite's `n` rows in ascending order, read from memory at `I` (R101). -/
def drawSprite (s : State) (x0 y0 n : Nat) : FrameBuffer × Bool :=
  (List.range n).foldl (fun c row =>
    match destRow s.cfg.rowOverflow y0 row with
    | some r => drawRow x0 c r (s.readByte (s.base + row))
    | none => c) (s.FB, false)

/-- 00E0 `CLS` (R100). -/
def execCls (s : State) : Result := .next (s.setFB (Vector.replicate 256 0))

/-- DXYN `DRW Vx, Vy, n` (R101, R103). The coordinates are read before VF is written; the memory range is checked first,
then, under `DRAW_ROW_OVERFLOW = Fault`, the bottom edge; `n = 0` draws nothing and clears VF (D36). -/
def execDrw (x y : Reg) (n : BitVec 4) (s : State) : Result :=
  let x0 := startColumn (s.reg x)
  let y0 := startRow (s.reg y)
  needBytes s.base n.toNat
    (if s.cfg.rowOverflow = .fault ∧ 1 ≤ n.toNat ∧ 31 < y0 + n.toNat - 1 then
      .fault (.addressOutOfRange .frameBuffer 256)
    else
      let drawn := drawSprite s x0 y0 n.toNat
      .next ((s.setFB drawn.1).setFlag drawn.2))

end Sys2Proof.Machine
end

