-- ==== Sys2Proof/Machine/IndexMemory.lean ====
section
/-! DEFINITION. Index-register and memory instructions (`43_index_memory.md`). -/

namespace Sys2Proof.Machine

/-- ANNN `LD I, nnn` (R150). -/
def execLdI (nnn : BitVec 12) (s : State) : Result := .next (s.setI (addressOf nnn))

/-- FX1E `ADD I, Vx` (R151): the sum modulo 4096, then VF (D35). -/
def execAddI (x : Reg) (s : State) : Result :=
  .next ((s.setI (BitVec.ofNat 16 ((s.I.toNat + (s.reg x).toNat) % 4096))).setFlag (crossesMemory s.I (s.reg x)))

/-- FX29 `LD F, Vx` (R152): computes an address only, never raises (D20). -/
def execLdF (x : Reg) (s : State) : Result := .next (s.setI (glyphAddress s.cfg (s.reg x)))

/-- FX33 `LD B, Vx` (R153). -/
def execLdB (x : Reg) (s : State) : Result :=
  needBytes s.base 3 (.next (s.writeBytes s.base (decimalDigits (s.reg x))))

/-- FX55 `LD [I], Vx` (R154): `I` is unchanged, whatever `Q_LOADSTORE` is (D13). -/
def execStoreRegs (x : Reg) (s : State) : Result :=
  needBytes s.base (x.val + 1) (.next (s.writeBytes s.base (s.regsUpTo x)))

/-- The register file after FX65: `V[i] <- MemRead(I + i, 1)` for `i` in `0..x` (R155). -/
def State.loadedRegs (s : State) (x : Reg) : Vector Byte 16 :=
  tabulate 16 fun i => if i ≤ x then s.readByte (s.base + i.val) else s.reg i

/-- FX65 `LD Vx, [I]` (R155): `I` is unchanged (D13). -/
def execLoadRegs (x : Reg) (s : State) : Result :=
  needBytes s.base (x.val + 1) (.next (s.setV (s.loadedRegs x)))

end Sys2Proof.Machine
end

