-- ==== Sys2Proof/Machine/KeypadTimers.lean ====
section
/-! DEFINITION. Keypad and timer instructions (`44_keypad_timers.md`). -/

namespace Sys2Proof.Machine

/-- EX9E `SKP Vx` (R170). -/
def execSkp (x : Reg) (s : State) : Result := skipIf (s.keyDown (keyOf (s.reg x))) s

/-- EXA1 `SKNP Vx` (R171). -/
def execSknp (x : Reg) (s : State) : Result := skipIf (!s.keyDown (keyOf (s.reg x))) s

/-- FX07 `LD Vx, DT` (R172; the assignment of the three timer patterns is D29, log 26). -/
def execLdVxDt (x : Reg) (s : State) : Result := .next (s.setReg x s.DT)

/-- FX0A `LD Vx, K` (R173): the lowest pressed key, or back to this instruction's own address. -/
def execLdVxK (x : Reg) (s : State) : Result :=
  match s.lowestKey with
  | some k => .next (s.setReg x (keyByte k))
  | none => .next (s.setPc (s.pc - 2))

/-- FX15 `LD DT, Vx` (R174). -/
def execLdDtVx (x : Reg) (s : State) : Result := .next (s.setDT (s.reg x))

/-- FX18 `LD ST, Vx` (R175). -/
def execLdStVx (x : Reg) (s : State) : Result := .next (s.setST (s.reg x))

end Sys2Proof.Machine
end

