-- ==== Sys2Proof/Machine/Superchip.lean ====
section
/-! DEFINITION. The SUPER-CHIP instructions (`45_superchip.md`). The gate `Q_SCHIP` is the dispatcher's (R74, R197): these
meanings are reached only when it is open (log 33). -/

namespace Sys2Proof.Machine

/-- The frame buffer scrolled down by `n` rows (R190): `FB'[k] = FB[k - 8n]`, zero for `k < 8n`. -/
def scrolledDown (fb : FrameBuffer) (n : Nat) : FrameBuffer :=
  tabulate 256 fun k => if k.val < 8 * n then 0 else fbGet fb (k.val - 8 * n)

/-- The frame buffer scrolled right by 4 pixels (R191): each byte takes the low nibble of its left neighbour in the same
row; nothing crosses a row (D17). -/
def scrolledRight (fb : FrameBuffer) : FrameBuffer :=
  tabulate 256 fun k =>
    if k.val % 8 = 0 then fbGet fb k.val >>> 4
    else (fbGet fb k.val >>> 4) ||| ((fbGet fb (k.val - 1) &&& 0x0F) <<< 4)

/-- 00CN `SCD n` (R190). -/
def execScd (n : BitVec 4) (s : State) : Result := .next (s.setFB (scrolledDown s.FB n.toNat))

/-- 00FB `SCR` (R191). -/
def execScr (s : State) : Result := .next (s.setFB (scrolledRight s.FB))

/-- 00FD `EXIT` (R192): a report, not a halt (D33). -/
def execExit (s : State) : Result := raiseErr .programExited s

/-- 00FE `LOW` (R193; D16). -/
def execLow (s : State) : Result := .next (s.setHires false)

/-- 00FF `HIGH` (R194; D16). -/
def execHigh (s : State) : Result := .next (s.setHires true)

/-- FX75 `LD R, Vx` (R195): the check precedes any copy (D19). -/
def execSaveRpl (x : Reg) (s : State) : Result :=
  if 7 < x.val then raiseErr .invalidRegisterReference s
  else .next (s.setRPL (tabulate 8 fun i => if i.val ≤ x.val then s.reg ⟨i.val, by omega⟩ else s.RPL[i]))

/-- FX85 `LD Vx, R` (R196): the check precedes any copy (D19). -/
def execRestoreRpl (x : Reg) (s : State) : Result :=
  if 7 < x.val then raiseErr .invalidRegisterReference s
  else .next (s.setV (tabulate 16 fun i => if i ≤ x then s.RPL[i.val]?.getD 0 else s.reg i))

end Sys2Proof.Machine
end

