-- ==== Sys2Proof/Machine/Fetch.lean ====
section
/-! DEFINITION. The fetch (`30_encoding.md` R74, steps 1 to 4), the last step of the dispatch (step 8), and placing an
opcode where the next fetch reads it. -/

namespace Sys2Proof.Machine

/-- The opcode at address `a`: two bytes, high byte first (R53). -/
def State.wordAt (s : State) (a : Nat) : Word := joinBytes (s.readByte a) (s.readByte (a + 1))

/-- Both bytes of the instruction at `pc` lie in memory (R74, step 1). -/
def State.fetchable (s : State) : Bool := decide (s.pc.toNat ≤ 0x0FFE)

/-- The opcode the next `cycle` fetches. -/
def State.fetched (s : State) : Word := s.wordAt s.pc.toNat

/-- The state in which the fetched opcode is executed (R74, steps 3 and 4): `IR` holds it and `pc` is 2 further. The
`cycle` returns `Ok` unless an error is raised later. -/
def State.afterFetch (s : State) (op : Word) : State :=
  ((s.setIR op).setPc (s.pc + 2)).setCycleResult .ok

/-- The fetch (R74, steps 1 to 4); a faulting fetch changes nothing (R56). -/
def fetch (s : State) : Result :=
  if s.fetchable then .next (s.afterFetch s.fetched) else .fault (.addressOutOfRange .mem s.pc.toNat)

/-- Step 8 of R74: no row matched the opcode in `IR` (R77). -/
def unknownOpcode (s : State) : Result := raiseErr (.unknownOpcode s.IR) s

/-- The state with the opcode `op` stored where the next `cycle` fetches: at `pc`, or at 0x200 with `pc` moved there when
`pc` is not fetchable (log 29). -/
def State.placeWord (s : State) (op : Word) : State :=
  let s := if s.fetchable then s else s.setPc (BitVec.ofNat 16 progBase)
  s.writeBytes s.pc.toNat [highByte op, lowByte op]

end Sys2Proof.Machine
end

