-- ==== Sys2Proof/Machine/Step.lean ====
section
/-! DEFINITION. One `cycle` (`30_encoding.md` R74, `50_host_interface.md` R212). -/

namespace Sys2Proof.Machine

/-- One `cycle`: fetch, look the opcode up, execute it or report UnknownOpcode (R74). -/
def step (s : State) : Host.Outcome State Fault Refusal :=
  match fetch s with
  | .next t =>
    match decode t.cfg.qSchip t.IR with
    | some i => exec i t
    | none => unknownOpcode t
  | .fault f => .fault f
  | .refused r => .refused r

/-- `s` with the 16-bit table word `w` stored where `step` fetches next (log 29). The bits of `w` above `nbits` are
taken as zero. -/
def State.withFetchWord (s : State) (nbits w : Nat) : State := s.placeWord (BitVec.ofNat 16 (w % 2 ^ nbits))

end Sys2Proof.Machine
end

