-- ==== Sys2Proof/Laws/Memory.lean ====
section
/-! SUPPORT. Memory: what a read answers after a write, and that every operation keeps the canonical form. -/

namespace Sys2Proof.Machine

/-! ## Reading after writing -/

theorem Memory.find_insert (a b : Nat) (v : Byte) (m : Memory) :
    Memory.find b (Memory.insert a v m) = if b = a then some v else Memory.find b m := by
  induction m with
  | nil => simp [Memory.insert, Memory.find, eq_comm]
  | cons cell rest ih =>
    obtain ⟨c, w⟩ := cell
    by_cases h : b = a
    · subst h
      simp only [Memory.insert]
      split_ifs with h1 h2
      · simp [Memory.find]
      · simp [Memory.find]
      · simp [Memory.find, ih, Ne.symm h2]
    · simp only [Memory.insert]
      split_ifs with h1 h2
      · simp [Memory.find, Ne.symm h]
      · simp [Memory.find, Ne.symm h, ← h2]
      · simp [Memory.find, ih, h]

theorem Memory.find_erase (a b : Nat) (m : Memory) :
    Memory.find b (Memory.erase a m) = if b = a then none else Memory.find b m := by
  induction m with
  | nil => simp [Memory.erase, Memory.find]
  | cons cell rest ih =>
    obtain ⟨c, w⟩ := cell
    by_cases h1 : c = a
    · subst h1
      by_cases h : b = c
      · subst h
        simpa [Memory.erase] using ih
      · simp [Memory.erase, ih, Memory.find, h, Ne.symm h]
    · simp only [Memory.erase, h1, if_false, Memory.find, ih]
      by_cases h2 : c = b
      · subst h2; simp [h1]
      · simp [h2]

/-- A write changes exactly the addressed byte (R57). -/
theorem Memory.read_write (c : Config) (m : Memory) (a b : Nat) (v : Byte) :
    Memory.read c (Memory.write c m a v) b = if b = a then v else Memory.read c m b := by
  unfold Memory.read Memory.write
  by_cases hv : v = initialByte c a
  · rw [if_pos hv, Memory.find_erase]
    by_cases h : b = a
    · simp [h, hv]
    · simp [h]
  · rw [if_neg hv, Memory.find_insert]
    by_cases h : b = a <;> simp [h]

/-- After writing bytes from `a` on, the bytes there are those, and every other byte is as before (R54, R57). -/
theorem Memory.read_writeAll (c : Config) (m : Memory) (a b : Nat) (vs : List Byte) :
    Memory.read c (Memory.writeAll c m a vs) b =
      if a ≤ b then (vs[b - a]?).getD (Memory.read c m b) else Memory.read c m b := by
  induction vs generalizing m a with
  | nil => simp [Memory.writeAll]
  | cons v rest ih =>
    rw [Memory.writeAll, ih, Memory.read_write]
    by_cases h1 : a + 1 ≤ b
    · have h2 : a ≤ b := by omega
      have h3 : b - a = (b - (a + 1)) + 1 := by omega
      have h4 : b ≠ a := by omega
      simp [h1, h2, h3, h4]
    · by_cases h2 : b = a
      · subst h2; simp
      · have h3 : ¬ a ≤ b := by omega
        simp [h1, h2, h3]

/-- Reading one byte of a state whose memory was written (R54, R57). -/
theorem State.readByte_writeBytes (s : State) (a b : Nat) (vs : List Byte) :
    (s.writeBytes a vs).readByte b = if a ≤ b then (vs[b - a]?).getD (s.readByte b) else s.readByte b :=
  Memory.read_writeAll s.cfg s.mem a b vs

/-- Bytes outside the written ones read as before. -/
theorem State.readByte_writeBytes_of_outside (s : State) (a b : Nat) (vs : List Byte)
    (h : b < a ∨ a + vs.length ≤ b) : (s.writeBytes a vs).readByte b = s.readByte b := by
  rw [State.readByte_writeBytes]
  split_ifs with h1
  · rw [List.getElem?_eq_none (by omega)]; rfl
  · rfl

/-! ## The canonical form -/

/-- A canonical memory listed from `lo` on is one from any lower bound. -/
theorem Memory.wfFrom_mono {c : Config} {lo lo' : Nat} {m : Memory} (h : Memory.wfFrom c lo m = true) (hl : lo' ≤ lo) :
    Memory.wfFrom c lo' m = true := by
  cases m with
  | nil => rfl
  | cons cell rest =>
    obtain ⟨a, v⟩ := cell
    simp only [Memory.wfFrom, Bool.and_eq_true, decide_eq_true_eq] at h ⊢
    exact ⟨⟨⟨by omega, h.1.1.2⟩, h.1.2⟩, h.2⟩

theorem Memory.wfFrom_insert {c : Config} {lo a : Nat} {v : Byte} {m : Memory} (h : Memory.wfFrom c lo m = true)
    (hlo : lo ≤ a) (ha : a < 4096) (hv : v ≠ initialByte c a) : Memory.wfFrom c lo (Memory.insert a v m) = true := by
  induction m generalizing lo with
  | nil => simp [Memory.insert, Memory.wfFrom, hlo, ha, hv]
  | cons cell rest ih =>
    obtain ⟨b, w⟩ := cell
    simp only [Memory.wfFrom, Bool.and_eq_true, decide_eq_true_eq] at h
    obtain ⟨⟨⟨h1, h2⟩, h3⟩, h4⟩ := h
    simp only [Memory.insert]
    split_ifs with hab hab'
    · simp [Memory.wfFrom, hlo, ha, hv, h2, h3, h4]
      omega
    · subst hab'
      simp [Memory.wfFrom, hlo, ha, hv, h4]
    · simp only [Memory.wfFrom, Bool.and_eq_true, decide_eq_true_eq]
      exact ⟨⟨⟨h1, h2⟩, h3⟩, ih h4 (by omega)⟩

theorem Memory.wfFrom_erase {c : Config} {lo a : Nat} {m : Memory} (h : Memory.wfFrom c lo m = true) :
    Memory.wfFrom c lo (Memory.erase a m) = true := by
  induction m generalizing lo with
  | nil => rfl
  | cons cell rest ih =>
    obtain ⟨b, w⟩ := cell
    simp only [Memory.wfFrom, Bool.and_eq_true, decide_eq_true_eq] at h
    obtain ⟨⟨⟨h1, h2⟩, h3⟩, h4⟩ := h
    simp only [Memory.erase]
    split_ifs
    · exact ih (Memory.wfFrom_mono h4 (by omega))
    · simp only [Memory.wfFrom, Bool.and_eq_true, decide_eq_true_eq]
      exact ⟨⟨⟨h1, h2⟩, h3⟩, ih h4⟩

/-- A write inside memory keeps the canonical form. -/
theorem Memory.wf_write {c : Config} {m : Memory} {a : Nat} {v : Byte} (h : Memory.wf c m = true) (ha : a < 4096) :
    Memory.wf c (Memory.write c m a v) = true := by
  unfold Memory.write Memory.wf
  split_ifs with hv
  · exact Memory.wfFrom_erase h
  · exact Memory.wfFrom_insert h (by omega) ha hv

/-- Writing bytes inside memory keeps the canonical form. -/
theorem Memory.wf_writeAll {c : Config} {m : Memory} {a : Nat} {vs : List Byte} (h : Memory.wf c m = true)
    (ha : a + vs.length ≤ 4096) : Memory.wf c (Memory.writeAll c m a vs) = true := by
  induction vs generalizing m a with
  | nil => exact h
  | cons v rest ih =>
    rw [List.length_cons] at ha
    exact ih (Memory.wf_write h (by omega)) (by omega)

/-- Memory at power-on lists nothing, which is canonical. -/
theorem Memory.wf_powerOn (c : Config) : Memory.wf c (State.powerOn c).mem = true := rfl

end Sys2Proof.Machine
end

