-- ==== Sys2Proof/Laws/State.lean ====
section
/-! SUPPORT. One lemma per field and update of `State`, all true by `rfl`, so that no proof unfolds a record update; and
what the accessors (`reg`, `slot`, `readByte`, `keyDown`, `pixel`, `base`) read after an update. -/

namespace Sys2Proof.Machine

section
variable (s : State)

/-! ### setReg -/

@[simp] theorem State.setReg_mem (r : Reg) (v : Byte) : (s.setReg r v).mem = s.mem := rfl
@[simp] theorem State.setReg_V (r : Reg) (v : Byte) : (s.setReg r v).V = s.V.set r v := rfl
@[simp] theorem State.setReg_I (r : Reg) (v : Byte) : (s.setReg r v).I = s.I := rfl
@[simp] theorem State.setReg_pc (r : Reg) (v : Byte) : (s.setReg r v).pc = s.pc := rfl
@[simp] theorem State.setReg_stack (r : Reg) (v : Byte) : (s.setReg r v).stack = s.stack := rfl
@[simp] theorem State.setReg_sp (r : Reg) (v : Byte) : (s.setReg r v).sp = s.sp := rfl
@[simp] theorem State.setReg_DT (r : Reg) (v : Byte) : (s.setReg r v).DT = s.DT := rfl
@[simp] theorem State.setReg_ST (r : Reg) (v : Byte) : (s.setReg r v).ST = s.ST := rfl
@[simp] theorem State.setReg_keys (r : Reg) (v : Byte) : (s.setReg r v).keys = s.keys := rfl
@[simp] theorem State.setReg_FB (r : Reg) (v : Byte) : (s.setReg r v).FB = s.FB := rfl
@[simp] theorem State.setReg_hires (r : Reg) (v : Byte) : (s.setReg r v).hires = s.hires := rfl
@[simp] theorem State.setReg_RPL (r : Reg) (v : Byte) : (s.setReg r v).RPL = s.RPL := rfl
@[simp] theorem State.setReg_IR (r : Reg) (v : Byte) : (s.setReg r v).IR = s.IR := rfl
@[simp] theorem State.setReg_cfg (r : Reg) (v : Byte) : (s.setReg r v).cfg = s.cfg := rfl
@[simp] theorem State.setReg_draws (r : Reg) (v : Byte) : (s.setReg r v).draws = s.draws := rfl
@[simp] theorem State.setReg_cycleResult (r : Reg) (v : Byte) : (s.setReg r v).cycleResult = s.cycleResult := rfl

/-! ### setV -/

@[simp] theorem State.setV_mem (v : Vector Byte 16) : (s.setV v).mem = s.mem := rfl
@[simp] theorem State.setV_V (v : Vector Byte 16) : (s.setV v).V = v := rfl
@[simp] theorem State.setV_I (v : Vector Byte 16) : (s.setV v).I = s.I := rfl
@[simp] theorem State.setV_pc (v : Vector Byte 16) : (s.setV v).pc = s.pc := rfl
@[simp] theorem State.setV_stack (v : Vector Byte 16) : (s.setV v).stack = s.stack := rfl
@[simp] theorem State.setV_sp (v : Vector Byte 16) : (s.setV v).sp = s.sp := rfl
@[simp] theorem State.setV_DT (v : Vector Byte 16) : (s.setV v).DT = s.DT := rfl
@[simp] theorem State.setV_ST (v : Vector Byte 16) : (s.setV v).ST = s.ST := rfl
@[simp] theorem State.setV_keys (v : Vector Byte 16) : (s.setV v).keys = s.keys := rfl
@[simp] theorem State.setV_FB (v : Vector Byte 16) : (s.setV v).FB = s.FB := rfl
@[simp] theorem State.setV_hires (v : Vector Byte 16) : (s.setV v).hires = s.hires := rfl
@[simp] theorem State.setV_RPL (v : Vector Byte 16) : (s.setV v).RPL = s.RPL := rfl
@[simp] theorem State.setV_IR (v : Vector Byte 16) : (s.setV v).IR = s.IR := rfl
@[simp] theorem State.setV_cfg (v : Vector Byte 16) : (s.setV v).cfg = s.cfg := rfl
@[simp] theorem State.setV_draws (v : Vector Byte 16) : (s.setV v).draws = s.draws := rfl
@[simp] theorem State.setV_cycleResult (v : Vector Byte 16) : (s.setV v).cycleResult = s.cycleResult := rfl

/-! ### setI -/

@[simp] theorem State.setI_mem (v : Word) : (s.setI v).mem = s.mem := rfl
@[simp] theorem State.setI_V (v : Word) : (s.setI v).V = s.V := rfl
@[simp] theorem State.setI_I (v : Word) : (s.setI v).I = v := rfl
@[simp] theorem State.setI_pc (v : Word) : (s.setI v).pc = s.pc := rfl
@[simp] theorem State.setI_stack (v : Word) : (s.setI v).stack = s.stack := rfl
@[simp] theorem State.setI_sp (v : Word) : (s.setI v).sp = s.sp := rfl
@[simp] theorem State.setI_DT (v : Word) : (s.setI v).DT = s.DT := rfl
@[simp] theorem State.setI_ST (v : Word) : (s.setI v).ST = s.ST := rfl
@[simp] theorem State.setI_keys (v : Word) : (s.setI v).keys = s.keys := rfl
@[simp] theorem State.setI_FB (v : Word) : (s.setI v).FB = s.FB := rfl
@[simp] theorem State.setI_hires (v : Word) : (s.setI v).hires = s.hires := rfl
@[simp] theorem State.setI_RPL (v : Word) : (s.setI v).RPL = s.RPL := rfl
@[simp] theorem State.setI_IR (v : Word) : (s.setI v).IR = s.IR := rfl
@[simp] theorem State.setI_cfg (v : Word) : (s.setI v).cfg = s.cfg := rfl
@[simp] theorem State.setI_draws (v : Word) : (s.setI v).draws = s.draws := rfl
@[simp] theorem State.setI_cycleResult (v : Word) : (s.setI v).cycleResult = s.cycleResult := rfl

/-! ### setPc -/

@[simp] theorem State.setPc_mem (v : Word) : (s.setPc v).mem = s.mem := rfl
@[simp] theorem State.setPc_V (v : Word) : (s.setPc v).V = s.V := rfl
@[simp] theorem State.setPc_I (v : Word) : (s.setPc v).I = s.I := rfl
@[simp] theorem State.setPc_pc (v : Word) : (s.setPc v).pc = v := rfl
@[simp] theorem State.setPc_stack (v : Word) : (s.setPc v).stack = s.stack := rfl
@[simp] theorem State.setPc_sp (v : Word) : (s.setPc v).sp = s.sp := rfl
@[simp] theorem State.setPc_DT (v : Word) : (s.setPc v).DT = s.DT := rfl
@[simp] theorem State.setPc_ST (v : Word) : (s.setPc v).ST = s.ST := rfl
@[simp] theorem State.setPc_keys (v : Word) : (s.setPc v).keys = s.keys := rfl
@[simp] theorem State.setPc_FB (v : Word) : (s.setPc v).FB = s.FB := rfl
@[simp] theorem State.setPc_hires (v : Word) : (s.setPc v).hires = s.hires := rfl
@[simp] theorem State.setPc_RPL (v : Word) : (s.setPc v).RPL = s.RPL := rfl
@[simp] theorem State.setPc_IR (v : Word) : (s.setPc v).IR = s.IR := rfl
@[simp] theorem State.setPc_cfg (v : Word) : (s.setPc v).cfg = s.cfg := rfl
@[simp] theorem State.setPc_draws (v : Word) : (s.setPc v).draws = s.draws := rfl
@[simp] theorem State.setPc_cycleResult (v : Word) : (s.setPc v).cycleResult = s.cycleResult := rfl

/-! ### setDT -/

@[simp] theorem State.setDT_mem (v : Byte) : (s.setDT v).mem = s.mem := rfl
@[simp] theorem State.setDT_V (v : Byte) : (s.setDT v).V = s.V := rfl
@[simp] theorem State.setDT_I (v : Byte) : (s.setDT v).I = s.I := rfl
@[simp] theorem State.setDT_pc (v : Byte) : (s.setDT v).pc = s.pc := rfl
@[simp] theorem State.setDT_stack (v : Byte) : (s.setDT v).stack = s.stack := rfl
@[simp] theorem State.setDT_sp (v : Byte) : (s.setDT v).sp = s.sp := rfl
@[simp] theorem State.setDT_DT (v : Byte) : (s.setDT v).DT = v := rfl
@[simp] theorem State.setDT_ST (v : Byte) : (s.setDT v).ST = s.ST := rfl
@[simp] theorem State.setDT_keys (v : Byte) : (s.setDT v).keys = s.keys := rfl
@[simp] theorem State.setDT_FB (v : Byte) : (s.setDT v).FB = s.FB := rfl
@[simp] theorem State.setDT_hires (v : Byte) : (s.setDT v).hires = s.hires := rfl
@[simp] theorem State.setDT_RPL (v : Byte) : (s.setDT v).RPL = s.RPL := rfl
@[simp] theorem State.setDT_IR (v : Byte) : (s.setDT v).IR = s.IR := rfl
@[simp] theorem State.setDT_cfg (v : Byte) : (s.setDT v).cfg = s.cfg := rfl
@[simp] theorem State.setDT_draws (v : Byte) : (s.setDT v).draws = s.draws := rfl
@[simp] theorem State.setDT_cycleResult (v : Byte) : (s.setDT v).cycleResult = s.cycleResult := rfl

/-! ### setST -/

@[simp] theorem State.setST_mem (v : Byte) : (s.setST v).mem = s.mem := rfl
@[simp] theorem State.setST_V (v : Byte) : (s.setST v).V = s.V := rfl
@[simp] theorem State.setST_I (v : Byte) : (s.setST v).I = s.I := rfl
@[simp] theorem State.setST_pc (v : Byte) : (s.setST v).pc = s.pc := rfl
@[simp] theorem State.setST_stack (v : Byte) : (s.setST v).stack = s.stack := rfl
@[simp] theorem State.setST_sp (v : Byte) : (s.setST v).sp = s.sp := rfl
@[simp] theorem State.setST_DT (v : Byte) : (s.setST v).DT = s.DT := rfl
@[simp] theorem State.setST_ST (v : Byte) : (s.setST v).ST = v := rfl
@[simp] theorem State.setST_keys (v : Byte) : (s.setST v).keys = s.keys := rfl
@[simp] theorem State.setST_FB (v : Byte) : (s.setST v).FB = s.FB := rfl
@[simp] theorem State.setST_hires (v : Byte) : (s.setST v).hires = s.hires := rfl
@[simp] theorem State.setST_RPL (v : Byte) : (s.setST v).RPL = s.RPL := rfl
@[simp] theorem State.setST_IR (v : Byte) : (s.setST v).IR = s.IR := rfl
@[simp] theorem State.setST_cfg (v : Byte) : (s.setST v).cfg = s.cfg := rfl
@[simp] theorem State.setST_draws (v : Byte) : (s.setST v).draws = s.draws := rfl
@[simp] theorem State.setST_cycleResult (v : Byte) : (s.setST v).cycleResult = s.cycleResult := rfl

/-! ### setKeys -/

@[simp] theorem State.setKeys_mem (v : Vector Bool 16) : (s.setKeys v).mem = s.mem := rfl
@[simp] theorem State.setKeys_V (v : Vector Bool 16) : (s.setKeys v).V = s.V := rfl
@[simp] theorem State.setKeys_I (v : Vector Bool 16) : (s.setKeys v).I = s.I := rfl
@[simp] theorem State.setKeys_pc (v : Vector Bool 16) : (s.setKeys v).pc = s.pc := rfl
@[simp] theorem State.setKeys_stack (v : Vector Bool 16) : (s.setKeys v).stack = s.stack := rfl
@[simp] theorem State.setKeys_sp (v : Vector Bool 16) : (s.setKeys v).sp = s.sp := rfl
@[simp] theorem State.setKeys_DT (v : Vector Bool 16) : (s.setKeys v).DT = s.DT := rfl
@[simp] theorem State.setKeys_ST (v : Vector Bool 16) : (s.setKeys v).ST = s.ST := rfl
@[simp] theorem State.setKeys_keys (v : Vector Bool 16) : (s.setKeys v).keys = v := rfl
@[simp] theorem State.setKeys_FB (v : Vector Bool 16) : (s.setKeys v).FB = s.FB := rfl
@[simp] theorem State.setKeys_hires (v : Vector Bool 16) : (s.setKeys v).hires = s.hires := rfl
@[simp] theorem State.setKeys_RPL (v : Vector Bool 16) : (s.setKeys v).RPL = s.RPL := rfl
@[simp] theorem State.setKeys_IR (v : Vector Bool 16) : (s.setKeys v).IR = s.IR := rfl
@[simp] theorem State.setKeys_cfg (v : Vector Bool 16) : (s.setKeys v).cfg = s.cfg := rfl
@[simp] theorem State.setKeys_draws (v : Vector Bool 16) : (s.setKeys v).draws = s.draws := rfl
@[simp] theorem State.setKeys_cycleResult (v : Vector Bool 16) : (s.setKeys v).cycleResult = s.cycleResult := rfl

/-! ### setFB -/

@[simp] theorem State.setFB_mem (v : FrameBuffer) : (s.setFB v).mem = s.mem := rfl
@[simp] theorem State.setFB_V (v : FrameBuffer) : (s.setFB v).V = s.V := rfl
@[simp] theorem State.setFB_I (v : FrameBuffer) : (s.setFB v).I = s.I := rfl
@[simp] theorem State.setFB_pc (v : FrameBuffer) : (s.setFB v).pc = s.pc := rfl
@[simp] theorem State.setFB_stack (v : FrameBuffer) : (s.setFB v).stack = s.stack := rfl
@[simp] theorem State.setFB_sp (v : FrameBuffer) : (s.setFB v).sp = s.sp := rfl
@[simp] theorem State.setFB_DT (v : FrameBuffer) : (s.setFB v).DT = s.DT := rfl
@[simp] theorem State.setFB_ST (v : FrameBuffer) : (s.setFB v).ST = s.ST := rfl
@[simp] theorem State.setFB_keys (v : FrameBuffer) : (s.setFB v).keys = s.keys := rfl
@[simp] theorem State.setFB_FB (v : FrameBuffer) : (s.setFB v).FB = v := rfl
@[simp] theorem State.setFB_hires (v : FrameBuffer) : (s.setFB v).hires = s.hires := rfl
@[simp] theorem State.setFB_RPL (v : FrameBuffer) : (s.setFB v).RPL = s.RPL := rfl
@[simp] theorem State.setFB_IR (v : FrameBuffer) : (s.setFB v).IR = s.IR := rfl
@[simp] theorem State.setFB_cfg (v : FrameBuffer) : (s.setFB v).cfg = s.cfg := rfl
@[simp] theorem State.setFB_draws (v : FrameBuffer) : (s.setFB v).draws = s.draws := rfl
@[simp] theorem State.setFB_cycleResult (v : FrameBuffer) : (s.setFB v).cycleResult = s.cycleResult := rfl

/-! ### setHires -/

@[simp] theorem State.setHires_mem (v : Bool) : (s.setHires v).mem = s.mem := rfl
@[simp] theorem State.setHires_V (v : Bool) : (s.setHires v).V = s.V := rfl
@[simp] theorem State.setHires_I (v : Bool) : (s.setHires v).I = s.I := rfl
@[simp] theorem State.setHires_pc (v : Bool) : (s.setHires v).pc = s.pc := rfl
@[simp] theorem State.setHires_stack (v : Bool) : (s.setHires v).stack = s.stack := rfl
@[simp] theorem State.setHires_sp (v : Bool) : (s.setHires v).sp = s.sp := rfl
@[simp] theorem State.setHires_DT (v : Bool) : (s.setHires v).DT = s.DT := rfl
@[simp] theorem State.setHires_ST (v : Bool) : (s.setHires v).ST = s.ST := rfl
@[simp] theorem State.setHires_keys (v : Bool) : (s.setHires v).keys = s.keys := rfl
@[simp] theorem State.setHires_FB (v : Bool) : (s.setHires v).FB = s.FB := rfl
@[simp] theorem State.setHires_hires (v : Bool) : (s.setHires v).hires = v := rfl
@[simp] theorem State.setHires_RPL (v : Bool) : (s.setHires v).RPL = s.RPL := rfl
@[simp] theorem State.setHires_IR (v : Bool) : (s.setHires v).IR = s.IR := rfl
@[simp] theorem State.setHires_cfg (v : Bool) : (s.setHires v).cfg = s.cfg := rfl
@[simp] theorem State.setHires_draws (v : Bool) : (s.setHires v).draws = s.draws := rfl
@[simp] theorem State.setHires_cycleResult (v : Bool) : (s.setHires v).cycleResult = s.cycleResult := rfl

/-! ### setRPL -/

@[simp] theorem State.setRPL_mem (v : Vector Byte 8) : (s.setRPL v).mem = s.mem := rfl
@[simp] theorem State.setRPL_V (v : Vector Byte 8) : (s.setRPL v).V = s.V := rfl
@[simp] theorem State.setRPL_I (v : Vector Byte 8) : (s.setRPL v).I = s.I := rfl
@[simp] theorem State.setRPL_pc (v : Vector Byte 8) : (s.setRPL v).pc = s.pc := rfl
@[simp] theorem State.setRPL_stack (v : Vector Byte 8) : (s.setRPL v).stack = s.stack := rfl
@[simp] theorem State.setRPL_sp (v : Vector Byte 8) : (s.setRPL v).sp = s.sp := rfl
@[simp] theorem State.setRPL_DT (v : Vector Byte 8) : (s.setRPL v).DT = s.DT := rfl
@[simp] theorem State.setRPL_ST (v : Vector Byte 8) : (s.setRPL v).ST = s.ST := rfl
@[simp] theorem State.setRPL_keys (v : Vector Byte 8) : (s.setRPL v).keys = s.keys := rfl
@[simp] theorem State.setRPL_FB (v : Vector Byte 8) : (s.setRPL v).FB = s.FB := rfl
@[simp] theorem State.setRPL_hires (v : Vector Byte 8) : (s.setRPL v).hires = s.hires := rfl
@[simp] theorem State.setRPL_RPL (v : Vector Byte 8) : (s.setRPL v).RPL = v := rfl
@[simp] theorem State.setRPL_IR (v : Vector Byte 8) : (s.setRPL v).IR = s.IR := rfl
@[simp] theorem State.setRPL_cfg (v : Vector Byte 8) : (s.setRPL v).cfg = s.cfg := rfl
@[simp] theorem State.setRPL_draws (v : Vector Byte 8) : (s.setRPL v).draws = s.draws := rfl
@[simp] theorem State.setRPL_cycleResult (v : Vector Byte 8) : (s.setRPL v).cycleResult = s.cycleResult := rfl

/-! ### setIR -/

@[simp] theorem State.setIR_mem (v : Word) : (s.setIR v).mem = s.mem := rfl
@[simp] theorem State.setIR_V (v : Word) : (s.setIR v).V = s.V := rfl
@[simp] theorem State.setIR_I (v : Word) : (s.setIR v).I = s.I := rfl
@[simp] theorem State.setIR_pc (v : Word) : (s.setIR v).pc = s.pc := rfl
@[simp] theorem State.setIR_stack (v : Word) : (s.setIR v).stack = s.stack := rfl
@[simp] theorem State.setIR_sp (v : Word) : (s.setIR v).sp = s.sp := rfl
@[simp] theorem State.setIR_DT (v : Word) : (s.setIR v).DT = s.DT := rfl
@[simp] theorem State.setIR_ST (v : Word) : (s.setIR v).ST = s.ST := rfl
@[simp] theorem State.setIR_keys (v : Word) : (s.setIR v).keys = s.keys := rfl
@[simp] theorem State.setIR_FB (v : Word) : (s.setIR v).FB = s.FB := rfl
@[simp] theorem State.setIR_hires (v : Word) : (s.setIR v).hires = s.hires := rfl
@[simp] theorem State.setIR_RPL (v : Word) : (s.setIR v).RPL = s.RPL := rfl
@[simp] theorem State.setIR_IR (v : Word) : (s.setIR v).IR = v := rfl
@[simp] theorem State.setIR_cfg (v : Word) : (s.setIR v).cfg = s.cfg := rfl
@[simp] theorem State.setIR_draws (v : Word) : (s.setIR v).draws = s.draws := rfl
@[simp] theorem State.setIR_cycleResult (v : Word) : (s.setIR v).cycleResult = s.cycleResult := rfl

/-! ### setCycleResult -/

@[simp] theorem State.setCycleResult_mem (v : CycleResult) : (s.setCycleResult v).mem = s.mem := rfl
@[simp] theorem State.setCycleResult_V (v : CycleResult) : (s.setCycleResult v).V = s.V := rfl
@[simp] theorem State.setCycleResult_I (v : CycleResult) : (s.setCycleResult v).I = s.I := rfl
@[simp] theorem State.setCycleResult_pc (v : CycleResult) : (s.setCycleResult v).pc = s.pc := rfl
@[simp] theorem State.setCycleResult_stack (v : CycleResult) : (s.setCycleResult v).stack = s.stack := rfl
@[simp] theorem State.setCycleResult_sp (v : CycleResult) : (s.setCycleResult v).sp = s.sp := rfl
@[simp] theorem State.setCycleResult_DT (v : CycleResult) : (s.setCycleResult v).DT = s.DT := rfl
@[simp] theorem State.setCycleResult_ST (v : CycleResult) : (s.setCycleResult v).ST = s.ST := rfl
@[simp] theorem State.setCycleResult_keys (v : CycleResult) : (s.setCycleResult v).keys = s.keys := rfl
@[simp] theorem State.setCycleResult_FB (v : CycleResult) : (s.setCycleResult v).FB = s.FB := rfl
@[simp] theorem State.setCycleResult_hires (v : CycleResult) : (s.setCycleResult v).hires = s.hires := rfl
@[simp] theorem State.setCycleResult_RPL (v : CycleResult) : (s.setCycleResult v).RPL = s.RPL := rfl
@[simp] theorem State.setCycleResult_IR (v : CycleResult) : (s.setCycleResult v).IR = s.IR := rfl
@[simp] theorem State.setCycleResult_cfg (v : CycleResult) : (s.setCycleResult v).cfg = s.cfg := rfl
@[simp] theorem State.setCycleResult_draws (v : CycleResult) : (s.setCycleResult v).draws = s.draws := rfl
@[simp] theorem State.setCycleResult_cycleResult (v : CycleResult) : (s.setCycleResult v).cycleResult = v := rfl

/-! ### useDraw -/

@[simp] theorem State.useDraw_mem : s.useDraw.mem = s.mem := rfl
@[simp] theorem State.useDraw_V : s.useDraw.V = s.V := rfl
@[simp] theorem State.useDraw_I : s.useDraw.I = s.I := rfl
@[simp] theorem State.useDraw_pc : s.useDraw.pc = s.pc := rfl
@[simp] theorem State.useDraw_stack : s.useDraw.stack = s.stack := rfl
@[simp] theorem State.useDraw_sp : s.useDraw.sp = s.sp := rfl
@[simp] theorem State.useDraw_DT : s.useDraw.DT = s.DT := rfl
@[simp] theorem State.useDraw_ST : s.useDraw.ST = s.ST := rfl
@[simp] theorem State.useDraw_keys : s.useDraw.keys = s.keys := rfl
@[simp] theorem State.useDraw_FB : s.useDraw.FB = s.FB := rfl
@[simp] theorem State.useDraw_hires : s.useDraw.hires = s.hires := rfl
@[simp] theorem State.useDraw_RPL : s.useDraw.RPL = s.RPL := rfl
@[simp] theorem State.useDraw_IR : s.useDraw.IR = s.IR := rfl
@[simp] theorem State.useDraw_cfg : s.useDraw.cfg = s.cfg := rfl
@[simp] theorem State.useDraw_draws : s.useDraw.draws = s.draws + 1 := rfl
@[simp] theorem State.useDraw_cycleResult : s.useDraw.cycleResult = s.cycleResult := rfl

/-! ### push -/

@[simp] theorem State.push_mem (v : Word) : (s.push v).mem = s.mem := rfl
@[simp] theorem State.push_V (v : Word) : (s.push v).V = s.V := rfl
@[simp] theorem State.push_I (v : Word) : (s.push v).I = s.I := rfl
@[simp] theorem State.push_pc (v : Word) : (s.push v).pc = s.pc := rfl
@[simp] theorem State.push_stack (v : Word) : (s.push v).stack = s.stack.set (s.sp + 1 : Fin 16).val v (s.sp + 1 : Fin 16).isLt := rfl
@[simp] theorem State.push_sp (v : Word) : (s.push v).sp = s.sp + 1 := rfl
@[simp] theorem State.push_DT (v : Word) : (s.push v).DT = s.DT := rfl
@[simp] theorem State.push_ST (v : Word) : (s.push v).ST = s.ST := rfl
@[simp] theorem State.push_keys (v : Word) : (s.push v).keys = s.keys := rfl
@[simp] theorem State.push_FB (v : Word) : (s.push v).FB = s.FB := rfl
@[simp] theorem State.push_hires (v : Word) : (s.push v).hires = s.hires := rfl
@[simp] theorem State.push_RPL (v : Word) : (s.push v).RPL = s.RPL := rfl
@[simp] theorem State.push_IR (v : Word) : (s.push v).IR = s.IR := rfl
@[simp] theorem State.push_cfg (v : Word) : (s.push v).cfg = s.cfg := rfl
@[simp] theorem State.push_draws (v : Word) : (s.push v).draws = s.draws := rfl
@[simp] theorem State.push_cycleResult (v : Word) : (s.push v).cycleResult = s.cycleResult := rfl

/-! ### pop -/

@[simp] theorem State.pop_mem : s.pop.mem = s.mem := rfl
@[simp] theorem State.pop_V : s.pop.V = s.V := rfl
@[simp] theorem State.pop_I : s.pop.I = s.I := rfl
@[simp] theorem State.pop_pc : s.pop.pc = s.slot s.sp := rfl
@[simp] theorem State.pop_stack : s.pop.stack = s.stack := rfl
@[simp] theorem State.pop_sp : s.pop.sp = s.sp - 1 := rfl
@[simp] theorem State.pop_DT : s.pop.DT = s.DT := rfl
@[simp] theorem State.pop_ST : s.pop.ST = s.ST := rfl
@[simp] theorem State.pop_keys : s.pop.keys = s.keys := rfl
@[simp] theorem State.pop_FB : s.pop.FB = s.FB := rfl
@[simp] theorem State.pop_hires : s.pop.hires = s.hires := rfl
@[simp] theorem State.pop_RPL : s.pop.RPL = s.RPL := rfl
@[simp] theorem State.pop_IR : s.pop.IR = s.IR := rfl
@[simp] theorem State.pop_cfg : s.pop.cfg = s.cfg := rfl
@[simp] theorem State.pop_draws : s.pop.draws = s.draws := rfl
@[simp] theorem State.pop_cycleResult : s.pop.cycleResult = s.cycleResult := rfl

/-! ### writeBytes -/

@[simp] theorem State.writeBytes_mem (a : Nat) (vs : List Byte) : (s.writeBytes a vs).mem = Memory.writeAll s.cfg s.mem a vs := rfl
@[simp] theorem State.writeBytes_V (a : Nat) (vs : List Byte) : (s.writeBytes a vs).V = s.V := rfl
@[simp] theorem State.writeBytes_I (a : Nat) (vs : List Byte) : (s.writeBytes a vs).I = s.I := rfl
@[simp] theorem State.writeBytes_pc (a : Nat) (vs : List Byte) : (s.writeBytes a vs).pc = s.pc := rfl
@[simp] theorem State.writeBytes_stack (a : Nat) (vs : List Byte) : (s.writeBytes a vs).stack = s.stack := rfl
@[simp] theorem State.writeBytes_sp (a : Nat) (vs : List Byte) : (s.writeBytes a vs).sp = s.sp := rfl
@[simp] theorem State.writeBytes_DT (a : Nat) (vs : List Byte) : (s.writeBytes a vs).DT = s.DT := rfl
@[simp] theorem State.writeBytes_ST (a : Nat) (vs : List Byte) : (s.writeBytes a vs).ST = s.ST := rfl
@[simp] theorem State.writeBytes_keys (a : Nat) (vs : List Byte) : (s.writeBytes a vs).keys = s.keys := rfl
@[simp] theorem State.writeBytes_FB (a : Nat) (vs : List Byte) : (s.writeBytes a vs).FB = s.FB := rfl
@[simp] theorem State.writeBytes_hires (a : Nat) (vs : List Byte) : (s.writeBytes a vs).hires = s.hires := rfl
@[simp] theorem State.writeBytes_RPL (a : Nat) (vs : List Byte) : (s.writeBytes a vs).RPL = s.RPL := rfl
@[simp] theorem State.writeBytes_IR (a : Nat) (vs : List Byte) : (s.writeBytes a vs).IR = s.IR := rfl
@[simp] theorem State.writeBytes_cfg (a : Nat) (vs : List Byte) : (s.writeBytes a vs).cfg = s.cfg := rfl
@[simp] theorem State.writeBytes_draws (a : Nat) (vs : List Byte) : (s.writeBytes a vs).draws = s.draws := rfl
@[simp] theorem State.writeBytes_cycleResult (a : Nat) (vs : List Byte) : (s.writeBytes a vs).cycleResult = s.cycleResult := rfl

/-! ### setFlag -/

@[simp] theorem State.setFlag_mem (b : Bool) : (s.setFlag b).mem = s.mem := rfl
@[simp] theorem State.setFlag_V (b : Bool) : (s.setFlag b).V = s.V.set vf (flagByte b) := rfl
@[simp] theorem State.setFlag_I (b : Bool) : (s.setFlag b).I = s.I := rfl
@[simp] theorem State.setFlag_pc (b : Bool) : (s.setFlag b).pc = s.pc := rfl
@[simp] theorem State.setFlag_stack (b : Bool) : (s.setFlag b).stack = s.stack := rfl
@[simp] theorem State.setFlag_sp (b : Bool) : (s.setFlag b).sp = s.sp := rfl
@[simp] theorem State.setFlag_DT (b : Bool) : (s.setFlag b).DT = s.DT := rfl
@[simp] theorem State.setFlag_ST (b : Bool) : (s.setFlag b).ST = s.ST := rfl
@[simp] theorem State.setFlag_keys (b : Bool) : (s.setFlag b).keys = s.keys := rfl
@[simp] theorem State.setFlag_FB (b : Bool) : (s.setFlag b).FB = s.FB := rfl
@[simp] theorem State.setFlag_hires (b : Bool) : (s.setFlag b).hires = s.hires := rfl
@[simp] theorem State.setFlag_RPL (b : Bool) : (s.setFlag b).RPL = s.RPL := rfl
@[simp] theorem State.setFlag_IR (b : Bool) : (s.setFlag b).IR = s.IR := rfl
@[simp] theorem State.setFlag_cfg (b : Bool) : (s.setFlag b).cfg = s.cfg := rfl
@[simp] theorem State.setFlag_draws (b : Bool) : (s.setFlag b).draws = s.draws := rfl
@[simp] theorem State.setFlag_cycleResult (b : Bool) : (s.setFlag b).cycleResult = s.cycleResult := rfl

/-! ### setRegFlag -/

@[simp] theorem State.setRegFlag_mem (x : Reg) (v : Byte) (b : Bool) : (s.setRegFlag x v b).mem = s.mem := rfl
@[simp] theorem State.setRegFlag_V (x : Reg) (v : Byte) (b : Bool) : (s.setRegFlag x v b).V = (s.V.set x v).set vf (flagByte b) := rfl
@[simp] theorem State.setRegFlag_I (x : Reg) (v : Byte) (b : Bool) : (s.setRegFlag x v b).I = s.I := rfl
@[simp] theorem State.setRegFlag_pc (x : Reg) (v : Byte) (b : Bool) : (s.setRegFlag x v b).pc = s.pc := rfl
@[simp] theorem State.setRegFlag_stack (x : Reg) (v : Byte) (b : Bool) : (s.setRegFlag x v b).stack = s.stack := rfl
@[simp] theorem State.setRegFlag_sp (x : Reg) (v : Byte) (b : Bool) : (s.setRegFlag x v b).sp = s.sp := rfl
@[simp] theorem State.setRegFlag_DT (x : Reg) (v : Byte) (b : Bool) : (s.setRegFlag x v b).DT = s.DT := rfl
@[simp] theorem State.setRegFlag_ST (x : Reg) (v : Byte) (b : Bool) : (s.setRegFlag x v b).ST = s.ST := rfl
@[simp] theorem State.setRegFlag_keys (x : Reg) (v : Byte) (b : Bool) : (s.setRegFlag x v b).keys = s.keys := rfl
@[simp] theorem State.setRegFlag_FB (x : Reg) (v : Byte) (b : Bool) : (s.setRegFlag x v b).FB = s.FB := rfl
@[simp] theorem State.setRegFlag_hires (x : Reg) (v : Byte) (b : Bool) : (s.setRegFlag x v b).hires = s.hires := rfl
@[simp] theorem State.setRegFlag_RPL (x : Reg) (v : Byte) (b : Bool) : (s.setRegFlag x v b).RPL = s.RPL := rfl
@[simp] theorem State.setRegFlag_IR (x : Reg) (v : Byte) (b : Bool) : (s.setRegFlag x v b).IR = s.IR := rfl
@[simp] theorem State.setRegFlag_cfg (x : Reg) (v : Byte) (b : Bool) : (s.setRegFlag x v b).cfg = s.cfg := rfl
@[simp] theorem State.setRegFlag_draws (x : Reg) (v : Byte) (b : Bool) : (s.setRegFlag x v b).draws = s.draws := rfl
@[simp] theorem State.setRegFlag_cycleResult (x : Reg) (v : Byte) (b : Bool) : (s.setRegFlag x v b).cycleResult = s.cycleResult := rfl

/-! ### afterFetch -/

@[simp] theorem State.afterFetch_mem (op : Word) : (s.afterFetch op).mem = s.mem := rfl
@[simp] theorem State.afterFetch_V (op : Word) : (s.afterFetch op).V = s.V := rfl
@[simp] theorem State.afterFetch_I (op : Word) : (s.afterFetch op).I = s.I := rfl
@[simp] theorem State.afterFetch_pc (op : Word) : (s.afterFetch op).pc = s.pc + 2 := rfl
@[simp] theorem State.afterFetch_stack (op : Word) : (s.afterFetch op).stack = s.stack := rfl
@[simp] theorem State.afterFetch_sp (op : Word) : (s.afterFetch op).sp = s.sp := rfl
@[simp] theorem State.afterFetch_DT (op : Word) : (s.afterFetch op).DT = s.DT := rfl
@[simp] theorem State.afterFetch_ST (op : Word) : (s.afterFetch op).ST = s.ST := rfl
@[simp] theorem State.afterFetch_keys (op : Word) : (s.afterFetch op).keys = s.keys := rfl
@[simp] theorem State.afterFetch_FB (op : Word) : (s.afterFetch op).FB = s.FB := rfl
@[simp] theorem State.afterFetch_hires (op : Word) : (s.afterFetch op).hires = s.hires := rfl
@[simp] theorem State.afterFetch_RPL (op : Word) : (s.afterFetch op).RPL = s.RPL := rfl
@[simp] theorem State.afterFetch_IR (op : Word) : (s.afterFetch op).IR = op := rfl
@[simp] theorem State.afterFetch_cfg (op : Word) : (s.afterFetch op).cfg = s.cfg := rfl
@[simp] theorem State.afterFetch_draws (op : Word) : (s.afterFetch op).draws = s.draws := rfl
@[simp] theorem State.afterFetch_cycleResult (op : Word) : (s.afterFetch op).cycleResult = .ok := rfl

/-! ### powerOn -/

@[simp] theorem State.powerOn_mem (c : Config) : (State.powerOn c).mem = [] := rfl
@[simp] theorem State.powerOn_V (c : Config) : (State.powerOn c).V = Vector.replicate 16 0 := rfl
@[simp] theorem State.powerOn_I (c : Config) : (State.powerOn c).I = 0 := rfl
@[simp] theorem State.powerOn_pc (c : Config) : (State.powerOn c).pc = 0x200 := rfl
@[simp] theorem State.powerOn_stack (c : Config) : (State.powerOn c).stack = Vector.replicate 16 0 := rfl
@[simp] theorem State.powerOn_sp (c : Config) : (State.powerOn c).sp = 0 := rfl
@[simp] theorem State.powerOn_DT (c : Config) : (State.powerOn c).DT = 0 := rfl
@[simp] theorem State.powerOn_ST (c : Config) : (State.powerOn c).ST = 0 := rfl
@[simp] theorem State.powerOn_keys (c : Config) : (State.powerOn c).keys = Vector.replicate 16 false := rfl
@[simp] theorem State.powerOn_FB (c : Config) : (State.powerOn c).FB = Vector.replicate 256 0 := rfl
@[simp] theorem State.powerOn_hires (c : Config) : (State.powerOn c).hires = false := rfl
@[simp] theorem State.powerOn_RPL (c : Config) : (State.powerOn c).RPL = c.rplInit := rfl
@[simp] theorem State.powerOn_IR (c : Config) : (State.powerOn c).IR = 0 := rfl
@[simp] theorem State.powerOn_cfg (c : Config) : (State.powerOn c).cfg = c := rfl
@[simp] theorem State.powerOn_draws (c : Config) : (State.powerOn c).draws = 0 := rfl
@[simp] theorem State.powerOn_cycleResult (c : Config) : (State.powerOn c).cycleResult = .ok := rfl

/-! ### Accessors: each reads through the updates of other elements -/

@[simp] theorem State.setReg_slot (r : Reg) (v : Byte) (k : Fin 16) : (s.setReg r v).slot k = s.slot k := rfl
@[simp] theorem State.setReg_keyDown (r : Reg) (v : Byte) (k : Fin 16) : (s.setReg r v).keyDown k = s.keyDown k := rfl
@[simp] theorem State.setReg_base (r : Reg) (v : Byte) : (s.setReg r v).base = s.base := rfl
@[simp] theorem State.setReg_pixel (r : Reg) (v : Byte) (i j : Nat) : (s.setReg r v).pixel i j = s.pixel i j := rfl
@[simp] theorem State.setReg_readByte (r : Reg) (v : Byte) (p : Nat) : (s.setReg r v).readByte p = s.readByte p := rfl
@[simp] theorem State.setReg_lowestKey (r : Reg) (v : Byte) : (s.setReg r v).lowestKey = s.lowestKey := rfl
@[simp] theorem State.setV_slot (v : Vector Byte 16) (k : Fin 16) : (s.setV v).slot k = s.slot k := rfl
@[simp] theorem State.setV_keyDown (v : Vector Byte 16) (k : Fin 16) : (s.setV v).keyDown k = s.keyDown k := rfl
@[simp] theorem State.setV_base (v : Vector Byte 16) : (s.setV v).base = s.base := rfl
@[simp] theorem State.setV_pixel (v : Vector Byte 16) (i j : Nat) : (s.setV v).pixel i j = s.pixel i j := rfl
@[simp] theorem State.setV_readByte (v : Vector Byte 16) (p : Nat) : (s.setV v).readByte p = s.readByte p := rfl
@[simp] theorem State.setV_lowestKey (v : Vector Byte 16) : (s.setV v).lowestKey = s.lowestKey := rfl
@[simp] theorem State.setI_reg (v : Word) (q : Reg) : (s.setI v).reg q = s.reg q := rfl
@[simp] theorem State.setI_slot (v : Word) (k : Fin 16) : (s.setI v).slot k = s.slot k := rfl
@[simp] theorem State.setI_keyDown (v : Word) (k : Fin 16) : (s.setI v).keyDown k = s.keyDown k := rfl
@[simp] theorem State.setI_pixel (v : Word) (i j : Nat) : (s.setI v).pixel i j = s.pixel i j := rfl
@[simp] theorem State.setI_readByte (v : Word) (p : Nat) : (s.setI v).readByte p = s.readByte p := rfl
@[simp] theorem State.setI_regsUpTo (v : Word) (q : Reg) : (s.setI v).regsUpTo q = s.regsUpTo q := rfl
@[simp] theorem State.setI_lowestKey (v : Word) : (s.setI v).lowestKey = s.lowestKey := rfl
@[simp] theorem State.setPc_reg (v : Word) (q : Reg) : (s.setPc v).reg q = s.reg q := rfl
@[simp] theorem State.setPc_slot (v : Word) (k : Fin 16) : (s.setPc v).slot k = s.slot k := rfl
@[simp] theorem State.setPc_keyDown (v : Word) (k : Fin 16) : (s.setPc v).keyDown k = s.keyDown k := rfl
@[simp] theorem State.setPc_base (v : Word) : (s.setPc v).base = s.base := rfl
@[simp] theorem State.setPc_pixel (v : Word) (i j : Nat) : (s.setPc v).pixel i j = s.pixel i j := rfl
@[simp] theorem State.setPc_readByte (v : Word) (p : Nat) : (s.setPc v).readByte p = s.readByte p := rfl
@[simp] theorem State.setPc_regsUpTo (v : Word) (q : Reg) : (s.setPc v).regsUpTo q = s.regsUpTo q := rfl
@[simp] theorem State.setPc_lowestKey (v : Word) : (s.setPc v).lowestKey = s.lowestKey := rfl
@[simp] theorem State.setDT_reg (v : Byte) (q : Reg) : (s.setDT v).reg q = s.reg q := rfl
@[simp] theorem State.setDT_slot (v : Byte) (k : Fin 16) : (s.setDT v).slot k = s.slot k := rfl
@[simp] theorem State.setDT_keyDown (v : Byte) (k : Fin 16) : (s.setDT v).keyDown k = s.keyDown k := rfl
@[simp] theorem State.setDT_base (v : Byte) : (s.setDT v).base = s.base := rfl
@[simp] theorem State.setDT_pixel (v : Byte) (i j : Nat) : (s.setDT v).pixel i j = s.pixel i j := rfl
@[simp] theorem State.setDT_readByte (v : Byte) (p : Nat) : (s.setDT v).readByte p = s.readByte p := rfl
@[simp] theorem State.setDT_regsUpTo (v : Byte) (q : Reg) : (s.setDT v).regsUpTo q = s.regsUpTo q := rfl
@[simp] theorem State.setDT_lowestKey (v : Byte) : (s.setDT v).lowestKey = s.lowestKey := rfl
@[simp] theorem State.setST_reg (v : Byte) (q : Reg) : (s.setST v).reg q = s.reg q := rfl
@[simp] theorem State.setST_slot (v : Byte) (k : Fin 16) : (s.setST v).slot k = s.slot k := rfl
@[simp] theorem State.setST_keyDown (v : Byte) (k : Fin 16) : (s.setST v).keyDown k = s.keyDown k := rfl
@[simp] theorem State.setST_base (v : Byte) : (s.setST v).base = s.base := rfl
@[simp] theorem State.setST_pixel (v : Byte) (i j : Nat) : (s.setST v).pixel i j = s.pixel i j := rfl
@[simp] theorem State.setST_readByte (v : Byte) (p : Nat) : (s.setST v).readByte p = s.readByte p := rfl
@[simp] theorem State.setST_regsUpTo (v : Byte) (q : Reg) : (s.setST v).regsUpTo q = s.regsUpTo q := rfl
@[simp] theorem State.setST_lowestKey (v : Byte) : (s.setST v).lowestKey = s.lowestKey := rfl
@[simp] theorem State.setKeys_reg (v : Vector Bool 16) (q : Reg) : (s.setKeys v).reg q = s.reg q := rfl
@[simp] theorem State.setKeys_slot (v : Vector Bool 16) (k : Fin 16) : (s.setKeys v).slot k = s.slot k := rfl
@[simp] theorem State.setKeys_base (v : Vector Bool 16) : (s.setKeys v).base = s.base := rfl
@[simp] theorem State.setKeys_pixel (v : Vector Bool 16) (i j : Nat) : (s.setKeys v).pixel i j = s.pixel i j := rfl
@[simp] theorem State.setKeys_readByte (v : Vector Bool 16) (p : Nat) : (s.setKeys v).readByte p = s.readByte p := rfl
@[simp] theorem State.setKeys_regsUpTo (v : Vector Bool 16) (q : Reg) : (s.setKeys v).regsUpTo q = s.regsUpTo q := rfl
@[simp] theorem State.setFB_reg (v : FrameBuffer) (q : Reg) : (s.setFB v).reg q = s.reg q := rfl
@[simp] theorem State.setFB_slot (v : FrameBuffer) (k : Fin 16) : (s.setFB v).slot k = s.slot k := rfl
@[simp] theorem State.setFB_keyDown (v : FrameBuffer) (k : Fin 16) : (s.setFB v).keyDown k = s.keyDown k := rfl
@[simp] theorem State.setFB_base (v : FrameBuffer) : (s.setFB v).base = s.base := rfl
@[simp] theorem State.setFB_readByte (v : FrameBuffer) (p : Nat) : (s.setFB v).readByte p = s.readByte p := rfl
@[simp] theorem State.setFB_regsUpTo (v : FrameBuffer) (q : Reg) : (s.setFB v).regsUpTo q = s.regsUpTo q := rfl
@[simp] theorem State.setFB_lowestKey (v : FrameBuffer) : (s.setFB v).lowestKey = s.lowestKey := rfl
@[simp] theorem State.setHires_reg (v : Bool) (q : Reg) : (s.setHires v).reg q = s.reg q := rfl
@[simp] theorem State.setHires_slot (v : Bool) (k : Fin 16) : (s.setHires v).slot k = s.slot k := rfl
@[simp] theorem State.setHires_keyDown (v : Bool) (k : Fin 16) : (s.setHires v).keyDown k = s.keyDown k := rfl
@[simp] theorem State.setHires_base (v : Bool) : (s.setHires v).base = s.base := rfl
@[simp] theorem State.setHires_pixel (v : Bool) (i j : Nat) : (s.setHires v).pixel i j = s.pixel i j := rfl
@[simp] theorem State.setHires_readByte (v : Bool) (p : Nat) : (s.setHires v).readByte p = s.readByte p := rfl
@[simp] theorem State.setHires_regsUpTo (v : Bool) (q : Reg) : (s.setHires v).regsUpTo q = s.regsUpTo q := rfl
@[simp] theorem State.setHires_lowestKey (v : Bool) : (s.setHires v).lowestKey = s.lowestKey := rfl
@[simp] theorem State.setRPL_reg (v : Vector Byte 8) (q : Reg) : (s.setRPL v).reg q = s.reg q := rfl
@[simp] theorem State.setRPL_slot (v : Vector Byte 8) (k : Fin 16) : (s.setRPL v).slot k = s.slot k := rfl
@[simp] theorem State.setRPL_keyDown (v : Vector Byte 8) (k : Fin 16) : (s.setRPL v).keyDown k = s.keyDown k := rfl
@[simp] theorem State.setRPL_base (v : Vector Byte 8) : (s.setRPL v).base = s.base := rfl
@[simp] theorem State.setRPL_pixel (v : Vector Byte 8) (i j : Nat) : (s.setRPL v).pixel i j = s.pixel i j := rfl
@[simp] theorem State.setRPL_readByte (v : Vector Byte 8) (p : Nat) : (s.setRPL v).readByte p = s.readByte p := rfl
@[simp] theorem State.setRPL_regsUpTo (v : Vector Byte 8) (q : Reg) : (s.setRPL v).regsUpTo q = s.regsUpTo q := rfl
@[simp] theorem State.setRPL_lowestKey (v : Vector Byte 8) : (s.setRPL v).lowestKey = s.lowestKey := rfl
@[simp] theorem State.setIR_reg (v : Word) (q : Reg) : (s.setIR v).reg q = s.reg q := rfl
@[simp] theorem State.setIR_slot (v : Word) (k : Fin 16) : (s.setIR v).slot k = s.slot k := rfl
@[simp] theorem State.setIR_keyDown (v : Word) (k : Fin 16) : (s.setIR v).keyDown k = s.keyDown k := rfl
@[simp] theorem State.setIR_base (v : Word) : (s.setIR v).base = s.base := rfl
@[simp] theorem State.setIR_pixel (v : Word) (i j : Nat) : (s.setIR v).pixel i j = s.pixel i j := rfl
@[simp] theorem State.setIR_readByte (v : Word) (p : Nat) : (s.setIR v).readByte p = s.readByte p := rfl
@[simp] theorem State.setIR_regsUpTo (v : Word) (q : Reg) : (s.setIR v).regsUpTo q = s.regsUpTo q := rfl
@[simp] theorem State.setIR_lowestKey (v : Word) : (s.setIR v).lowestKey = s.lowestKey := rfl
@[simp] theorem State.setCycleResult_reg (v : CycleResult) (q : Reg) : (s.setCycleResult v).reg q = s.reg q := rfl
@[simp] theorem State.setCycleResult_slot (v : CycleResult) (k : Fin 16) : (s.setCycleResult v).slot k = s.slot k := rfl
@[simp] theorem State.setCycleResult_keyDown (v : CycleResult) (k : Fin 16) : (s.setCycleResult v).keyDown k = s.keyDown k := rfl
@[simp] theorem State.setCycleResult_base (v : CycleResult) : (s.setCycleResult v).base = s.base := rfl
@[simp] theorem State.setCycleResult_pixel (v : CycleResult) (i j : Nat) : (s.setCycleResult v).pixel i j = s.pixel i j := rfl
@[simp] theorem State.setCycleResult_readByte (v : CycleResult) (p : Nat) : (s.setCycleResult v).readByte p = s.readByte p := rfl
@[simp] theorem State.setCycleResult_regsUpTo (v : CycleResult) (q : Reg) : (s.setCycleResult v).regsUpTo q = s.regsUpTo q := rfl
@[simp] theorem State.setCycleResult_lowestKey (v : CycleResult) : (s.setCycleResult v).lowestKey = s.lowestKey := rfl
@[simp] theorem State.useDraw_reg (q : Reg) : s.useDraw.reg q = s.reg q := rfl
@[simp] theorem State.useDraw_slot (k : Fin 16) : s.useDraw.slot k = s.slot k := rfl
@[simp] theorem State.useDraw_keyDown (k : Fin 16) : s.useDraw.keyDown k = s.keyDown k := rfl
@[simp] theorem State.useDraw_base : s.useDraw.base = s.base := rfl
@[simp] theorem State.useDraw_pixel (i j : Nat) : s.useDraw.pixel i j = s.pixel i j := rfl
@[simp] theorem State.useDraw_readByte (p : Nat) : s.useDraw.readByte p = s.readByte p := rfl
@[simp] theorem State.useDraw_regsUpTo (q : Reg) : s.useDraw.regsUpTo q = s.regsUpTo q := rfl
@[simp] theorem State.useDraw_lowestKey : s.useDraw.lowestKey = s.lowestKey := rfl
@[simp] theorem State.push_reg (v : Word) (q : Reg) : (s.push v).reg q = s.reg q := rfl
@[simp] theorem State.push_keyDown (v : Word) (k : Fin 16) : (s.push v).keyDown k = s.keyDown k := rfl
@[simp] theorem State.push_base (v : Word) : (s.push v).base = s.base := rfl
@[simp] theorem State.push_pixel (v : Word) (i j : Nat) : (s.push v).pixel i j = s.pixel i j := rfl
@[simp] theorem State.push_readByte (v : Word) (p : Nat) : (s.push v).readByte p = s.readByte p := rfl
@[simp] theorem State.push_regsUpTo (v : Word) (q : Reg) : (s.push v).regsUpTo q = s.regsUpTo q := rfl
@[simp] theorem State.push_lowestKey (v : Word) : (s.push v).lowestKey = s.lowestKey := rfl
@[simp] theorem State.pop_reg (q : Reg) : s.pop.reg q = s.reg q := rfl
@[simp] theorem State.pop_slot (k : Fin 16) : s.pop.slot k = s.slot k := rfl
@[simp] theorem State.pop_keyDown (k : Fin 16) : s.pop.keyDown k = s.keyDown k := rfl
@[simp] theorem State.pop_base : s.pop.base = s.base := rfl
@[simp] theorem State.pop_pixel (i j : Nat) : s.pop.pixel i j = s.pixel i j := rfl
@[simp] theorem State.pop_readByte (p : Nat) : s.pop.readByte p = s.readByte p := rfl
@[simp] theorem State.pop_regsUpTo (q : Reg) : s.pop.regsUpTo q = s.regsUpTo q := rfl
@[simp] theorem State.pop_lowestKey : s.pop.lowestKey = s.lowestKey := rfl
@[simp] theorem State.writeBytes_reg (a : Nat) (vs : List Byte) (q : Reg) : (s.writeBytes a vs).reg q = s.reg q := rfl
@[simp] theorem State.writeBytes_slot (a : Nat) (vs : List Byte) (k : Fin 16) : (s.writeBytes a vs).slot k = s.slot k := rfl
@[simp] theorem State.writeBytes_keyDown (a : Nat) (vs : List Byte) (k : Fin 16) : (s.writeBytes a vs).keyDown k = s.keyDown k := rfl
@[simp] theorem State.writeBytes_base (a : Nat) (vs : List Byte) : (s.writeBytes a vs).base = s.base := rfl
@[simp] theorem State.writeBytes_pixel (a : Nat) (vs : List Byte) (i j : Nat) : (s.writeBytes a vs).pixel i j = s.pixel i j := rfl
@[simp] theorem State.writeBytes_regsUpTo (a : Nat) (vs : List Byte) (q : Reg) : (s.writeBytes a vs).regsUpTo q = s.regsUpTo q := rfl
@[simp] theorem State.writeBytes_lowestKey (a : Nat) (vs : List Byte) : (s.writeBytes a vs).lowestKey = s.lowestKey := rfl
@[simp] theorem State.setFlag_slot (b : Bool) (k : Fin 16) : (s.setFlag b).slot k = s.slot k := rfl
@[simp] theorem State.setFlag_keyDown (b : Bool) (k : Fin 16) : (s.setFlag b).keyDown k = s.keyDown k := rfl
@[simp] theorem State.setFlag_base (b : Bool) : (s.setFlag b).base = s.base := rfl
@[simp] theorem State.setFlag_pixel (b : Bool) (i j : Nat) : (s.setFlag b).pixel i j = s.pixel i j := rfl
@[simp] theorem State.setFlag_readByte (b : Bool) (p : Nat) : (s.setFlag b).readByte p = s.readByte p := rfl
@[simp] theorem State.setFlag_lowestKey (b : Bool) : (s.setFlag b).lowestKey = s.lowestKey := rfl
@[simp] theorem State.setRegFlag_slot (x : Reg) (v : Byte) (b : Bool) (k : Fin 16) : (s.setRegFlag x v b).slot k = s.slot k := rfl
@[simp] theorem State.setRegFlag_keyDown (x : Reg) (v : Byte) (b : Bool) (k : Fin 16) : (s.setRegFlag x v b).keyDown k = s.keyDown k := rfl
@[simp] theorem State.setRegFlag_base (x : Reg) (v : Byte) (b : Bool) : (s.setRegFlag x v b).base = s.base := rfl
@[simp] theorem State.setRegFlag_pixel (x : Reg) (v : Byte) (b : Bool) (i j : Nat) : (s.setRegFlag x v b).pixel i j = s.pixel i j := rfl
@[simp] theorem State.setRegFlag_readByte (x : Reg) (v : Byte) (b : Bool) (p : Nat) : (s.setRegFlag x v b).readByte p = s.readByte p := rfl
@[simp] theorem State.setRegFlag_lowestKey (x : Reg) (v : Byte) (b : Bool) : (s.setRegFlag x v b).lowestKey = s.lowestKey := rfl
@[simp] theorem State.afterFetch_reg (op : Word) (q : Reg) : (s.afterFetch op).reg q = s.reg q := rfl
@[simp] theorem State.afterFetch_slot (op : Word) (k : Fin 16) : (s.afterFetch op).slot k = s.slot k := rfl
@[simp] theorem State.afterFetch_keyDown (op : Word) (k : Fin 16) : (s.afterFetch op).keyDown k = s.keyDown k := rfl
@[simp] theorem State.afterFetch_base (op : Word) : (s.afterFetch op).base = s.base := rfl
@[simp] theorem State.afterFetch_pixel (op : Word) (i j : Nat) : (s.afterFetch op).pixel i j = s.pixel i j := rfl
@[simp] theorem State.afterFetch_readByte (op : Word) (p : Nat) : (s.afterFetch op).readByte p = s.readByte p := rfl
@[simp] theorem State.afterFetch_regsUpTo (op : Word) (q : Reg) : (s.afterFetch op).regsUpTo q = s.regsUpTo q := rfl
@[simp] theorem State.afterFetch_lowestKey (op : Word) : (s.afterFetch op).lowestKey = s.lowestKey := rfl

/-! ### Registers -/

/-- A register after a register write (R21: no register is hardwired or aliased). -/
theorem State.reg_setReg (r q : Reg) (v : Byte) : (s.setReg r v).reg q = if q = r then v else s.reg q := by
  simp only [State.reg, State.setReg, Fin.getElem_fin, Vector.getElem_set, Fin.val_inj, eq_comm]

@[simp] theorem State.reg_setReg_self (r : Reg) (v : Byte) : (s.setReg r v).reg r = v := by simp [State.reg_setReg]

theorem State.reg_setReg_of_ne {r q : Reg} (v : Byte) (h : q ≠ r) : (s.setReg r v).reg q = s.reg q := by
  simp [State.reg_setReg, h]

/-- A register after VF was written. -/
theorem State.reg_setFlag (b : Bool) (q : Reg) : (s.setFlag b).reg q = if q = vf then flagByte b else s.reg q :=
  s.reg_setReg vf q (flagByte b)

/-- A register after a result and then VF were written (R142): the flag wins in VF. -/
theorem State.reg_setRegFlag (x q : Reg) (v : Byte) (b : Bool) :
    (s.setRegFlag x v b).reg q = if q = vf then flagByte b else if q = x then v else s.reg q := by
  simp only [State.setRegFlag, State.reg_setFlag, State.reg_setReg]

@[simp] theorem State.reg_setV (v : Vector Byte 16) (q : Reg) : (s.setV v).reg q = v[q] := rfl

/-- Two states with the same registers have the same register file. -/
theorem State.V_ext {s t : State} (h : ∀ r, t.reg r = s.reg r) : t.V = s.V := by
  apply Vector.ext
  intro k hk
  exact h ⟨k, hk⟩

/-! ### Call stack -/

/-- A slot after a push: only the slot above the old pointer changes (R27). -/
theorem State.slot_push (v : Word) (k : Fin 16) : (s.push v).slot k = if k = s.sp + 1 then v else s.slot k := by
  simp only [State.slot, State.push, Fin.getElem_fin, Vector.getElem_set, Fin.val_inj, eq_comm]

/-! ### The fetch -/

@[simp] theorem State.powerOn_reg (c : Config) (r : Reg) : (State.powerOn c).reg r = 0 := by
  simp [State.reg]

@[simp] theorem State.powerOn_slot (c : Config) (k : Fin 16) : (State.powerOn c).slot k = 0 := by
  simp [State.slot]

@[simp] theorem State.powerOn_keyDown (c : Config) (k : Fin 16) : (State.powerOn c).keyDown k = false := by
  simp [State.keyDown]

end

end Sys2Proof.Machine
end

