-- ==== Sys2Proof/Laws/Ops.lean ====
section
/-! SUPPORT. For each shared operation, what it can do, said once. -/

namespace Sys2Proof.Machine

/-! ## Ending an instruction -/

/-- Raising an error answers the same state with the error as the cycle's result (R251, R252). -/
@[simp] theorem raiseErr_eq_next {e : ErrorKind} {s t : State} :
    raiseErr e s = .next t ↔ t = s.setCycleResult (.err e) := by
  simp [raiseErr, eq_comm]

/-- Raising an error is no fault. -/
@[simp] theorem raiseErr_ne_fault {e : ErrorKind} {s : State} {f : Fault} : raiseErr e s ≠ .fault f := nofun

/-- Raising an error is no refusal. -/
@[simp] theorem raiseErr_ne_refused {e : ErrorKind} {s : State} {r : Refusal} : raiseErr e s ≠ .refused r := nofun

/-- All the bytes are inside memory: `needBytes` does what it guards. -/
theorem needBytes_of_inside {a len : Nat} {k : Result} (h : len = 0 ∨ a + len ≤ 4096) : needBytes a len k = k := by
  rw [needBytes, if_neg]; omega

/-- A byte is outside: the fault of R56. -/
theorem needBytes_of_outside {a len : Nat} {k : Result} (h1 : 1 ≤ len) (h2 : 4096 < a + len) :
    needBytes a len k = .fault (.addressOutOfRange .mem 0x1000) := by
  rw [needBytes, if_pos]; omega

/-- A guarded operation answers next only through what it guards, with all bytes inside memory. -/
theorem needBytes_eq_next {a len : Nat} {k : Result} {t : State} :
    needBytes a len k = .next t ↔ (len = 0 ∨ a + len ≤ 4096) ∧ k = .next t := by
  unfold needBytes
  split_ifs with h
  · simp; omega
  · constructor
    · intro hk; exact ⟨by omega, hk⟩
    · exact fun hk => hk.2

/-- A guarded operation faults for a byte outside memory, or as what it guards does. -/
theorem needBytes_eq_fault {a len : Nat} {k : Result} {f : Fault} :
    needBytes a len k = .fault f ↔
      (1 ≤ len ∧ 4096 < a + len ∧ f = .addressOutOfRange .mem 0x1000) ∨
        ((len = 0 ∨ a + len ≤ 4096) ∧ k = .fault f) := by
  unfold needBytes
  split_ifs with h
  · constructor
    · intro hf
      cases hf
      exact .inl ⟨h.1, by omega, rfl⟩
    · rintro (⟨-, -, rfl⟩ | ⟨h', -⟩)
      · rfl
      · omega
  · constructor
    · intro hk; exact .inr ⟨by omega, hk⟩
    · rintro (⟨h1, h2, -⟩ | ⟨-, hk⟩)
      · omega
      · exact hk

/-- A skip always answers next, and moves `pc` alone (R26). -/
theorem skipIf_eq_next {b : Bool} {s t : State} :
    skipIf b s = .next t ↔ t = if b then s.setPc (s.pc + 2) else s := by
  simp [skipIf, eq_comm]

/-! ## Arrays -/

@[simp] theorem tabulate_getElem {α : Type} {n : Nat} (f : Fin n → α) (k : Nat) (h : k < n) :
    (tabulate n f)[k] = f ⟨k, h⟩ := by
  simp [tabulate]

@[simp] theorem tabulate_getElem_fin {α : Type} {n : Nat} (f : Fin n → α) (k : Fin n) : (tabulate n f)[k] = f k :=
  tabulate_getElem f k.val k.isLt

/-- A byte inside the frame buffer. -/
theorem fbGet_of_lt (fb : FrameBuffer) {o : Nat} (h : o < 256) : fbGet fb o = fb[o] := by
  simp [fbGet, h]

/-- A byte of a frame buffer given by a function. -/
theorem fbGet_tabulate (f : Fin 256 → Byte) {o : Nat} (h : o < 256) : fbGet (tabulate 256 f) o = f ⟨o, h⟩ := by
  rw [fbGet_of_lt _ h, tabulate_getElem]

/-- A frame-buffer byte after one was written. -/
theorem fbGet_fbPut (fb : FrameBuffer) (o p : Nat) (v : Byte) (h : o < 256) :
    fbGet (fbPut fb o v) p = if p = o then v else fbGet fb p := by
  unfold fbGet fbPut
  by_cases hp : p < 256
  · have h1 : p < 256 := hp
    simp only [hp, Vector.getElem?_eq_getElem, Option.getD_some, Vector.getElem_setIfInBounds, eq_comm (a := p)]
  · have : p ≠ o := by omega
    simp [hp, this]

/-- Frame buffers with the same 256 bytes are equal. -/
theorem FrameBuffer.ext_fbGet {fb gb : FrameBuffer} (h : ∀ o, o < 256 → fbGet fb o = fbGet gb o) : fb = gb := by
  apply Vector.ext
  intro o ho
  rw [← fbGet_of_lt fb ho, ← fbGet_of_lt gb ho]
  exact h o ho

/-! ## Drawing -/

/-- One XOR into the frame buffer: the byte it touches, and every other byte. -/
theorem fbGet_xorByte (c : FrameBuffer × Bool) (o p : Nat) (b : Byte) (h : o < 256) :
    fbGet (xorByte c o b).1 p = if p = o then fbGet c.1 o ^^^ b else fbGet c.1 p :=
  fbGet_fbPut c.1 o p _ h

/-- The collision so far is kept, and a hit is added (R101). -/
theorem xorByte_hit (c : FrameBuffer × Bool) (o : Nat) (b : Byte) :
    (xorByte c o b).2 = (c.2 || (fbGet c.1 o &&& b) != 0) := rfl

/-! ## Flags -/

/-- A flag's value is 0 or 1 (R22). -/
theorem flagByte_zero_or_one (b : Bool) : flagByte b = 0 ∨ flagByte b = 1 := by
  cases b <;> simp [flagByte]

@[simp] theorem flagByte_eq_one {b : Bool} : flagByte b = 1 ↔ b = true := by
  cases b <;> simp [flagByte]

@[simp] theorem flagByte_eq_zero {b : Bool} : flagByte b = 0 ↔ b = false := by
  cases b <;> simp [flagByte]

@[simp] theorem carryOut_eq_true {a b : Byte} : carryOut a b = true ↔ 255 < a.toNat + b.toNat := by
  simp [carryOut]

@[simp] theorem noBorrow_eq_true {a b : Byte} : noBorrow a b = true ↔ b.toNat ≤ a.toNat := by
  simp [noBorrow]

@[simp] theorem crossesMemory_eq_true {i : Word} {a : Byte} : crossesMemory i a = true ↔ 4096 ≤ i.toNat + a.toNat := by
  simp [crossesMemory]

/-! ## Operands -/

/-- A 12-bit address keeps its value (R73). -/
@[simp] theorem addressOf_toNat (nnn : BitVec 12) : (addressOf nnn).toNat = nnn.toNat := by
  have := nnn.isLt
  simp only [addressOf, BitVec.toNat_setWidth]
  omega

/-- The BNNN sum never wraps (R117). -/
theorem offsetTarget_toNat (nnn : BitVec 12) (v : Byte) : (offsetTarget nnn v).toNat = nnn.toNat + v.toNat := by
  have := nnn.isLt
  have := v.isLt
  simp only [offsetTarget, BitVec.toNat_add, BitVec.toNat_setWidth]
  omega

/-- A start column is on the screen (R101). -/
theorem startColumn_lt (v : Byte) : startColumn v < 64 := by
  have h : (v &&& 0x3F).toNat ≤ 63 := by
    rw [BitVec.toNat_and]; exact Nat.and_le_right
  exact Nat.lt_succ_of_le h

/-- A start row is on the screen (R101). -/
theorem startRow_lt (v : Byte) : startRow v < 32 := by
  have h : (v &&& 0x1F).toNat ≤ 31 := by
    rw [BitVec.toNat_and]; exact Nat.and_le_right
  exact Nat.lt_succ_of_le h

/-- Sprite rows of one instruction land on frame-buffer rows (R101, R103). -/
theorem destRow_lt {o : RowOverflow} {y0 row r : Nat} (hy : y0 < 32) (hr : row < 16)
    (h : destRow o y0 row = some r) : r < 32 := by
  unfold destRow at h
  split at h
  · cases h; omega
  · split at h
    · cases h; omega
    · exact absurd h (by simp)
    · exact absurd h (by simp)

/-- The registers FX55 stores are `x + 1` many (R154). -/
@[simp] theorem State.regsUpTo_length (s : State) (x : Reg) : (s.regsUpTo x).length = x.val + 1 := by
  have := x.isLt
  simp [State.regsUpTo]

/-- The `i`-th byte FX55 stores is `V[i]` (R154). -/
theorem State.regsUpTo_getElem? (s : State) (x i : Reg) (h : i ≤ x) : (s.regsUpTo x)[i.val]? = some (s.reg i) := by
  have h1 : i.val < x.val + 1 := Nat.lt_succ_of_le h
  simp [State.regsUpTo, h1, State.reg]

/-- A loaded register (R155). -/
theorem State.loadedRegs_getElem (s : State) (x i : Reg) :
    (s.loadedRegs x)[i] = if i ≤ x then s.readByte (s.base + i.val) else s.reg i :=
  tabulate_getElem_fin _ i

end Sys2Proof.Machine
end

