-- ==== Sys2Proof/Laws/Decode.lean ====
section
/-! SUPPORT. Fields and masks of an encoded opcode, format by format (`30_encoding.md` R71, R72): what the encoder lays
down is what the decoder's field functions and masks read. -/

namespace Sys2Proof

@[simp] theorem regBits_toFin (r : Reg) : (regBits r).toFin = r := rfl

/-! ## Format NNN -/

theorem nnn_mask (t : BitVec 4) (a : BitVec 12) : (t ++ a : Word) &&& 0xF000 = t ++ 0#12 := by
  apply BitVec.eq_of_getLsbD_eq
  intro i hi
  simp only [BitVec.getLsbD_and, BitVec.getLsbD_append]
  interval_cases i <;> simp

@[simp] theorem nnn_field (t : BitVec 4) (a : BitVec 12) : fieldNNN (t ++ a) = a := by
  apply BitVec.eq_of_getLsbD_eq
  intro i hi
  simp only [fieldNNN, BitVec.getLsbD_extractLsb', BitVec.getLsbD_append]
  interval_cases i <;> simp

/-! ## Formats XNN and X -/

theorem xnn_mask (t a : BitVec 4) (b : BitVec 8) : (t ++ a ++ b : Word) &&& 0xF000 = t ++ 0#4 ++ 0#8 := by
  apply BitVec.eq_of_getLsbD_eq
  intro i hi
  simp only [BitVec.getLsbD_and, BitVec.getLsbD_append]
  interval_cases i <;> simp

theorem x_mask (t a : BitVec 4) (b : BitVec 8) : (t ++ a ++ b : Word) &&& 0xF0FF = t ++ 0#4 ++ b := by
  apply BitVec.eq_of_getLsbD_eq
  intro i hi
  simp only [BitVec.getLsbD_and, BitVec.getLsbD_append]
  interval_cases i <;> simp

@[simp] theorem xnn_fieldX (t a : BitVec 4) (b : BitVec 8) : fieldX (t ++ a ++ b) = a.toFin := by
  unfold fieldX
  congr 1
  apply BitVec.eq_of_getLsbD_eq
  intro i hi
  simp only [BitVec.getLsbD_extractLsb', BitVec.getLsbD_append]
  interval_cases i <;> simp

@[simp] theorem xnn_fieldNN (t a : BitVec 4) (b : BitVec 8) : fieldNN (t ++ a ++ b) = b := by
  apply BitVec.eq_of_getLsbD_eq
  intro i hi
  simp only [fieldNN, BitVec.getLsbD_extractLsb', BitVec.getLsbD_append]
  interval_cases i <;> simp

/-! ## Formats XY and XYN -/

theorem xyn_mask (t a b c : BitVec 4) : (t ++ a ++ b ++ c : Word) &&& 0xF000 = t ++ 0#4 ++ 0#4 ++ 0#4 := by
  apply BitVec.eq_of_getLsbD_eq
  intro i hi
  simp only [BitVec.getLsbD_and, BitVec.getLsbD_append]
  interval_cases i <;> simp

theorem xy_mask (t a b c : BitVec 4) : (t ++ a ++ b ++ c : Word) &&& 0xF00F = t ++ 0#4 ++ 0#4 ++ c := by
  apply BitVec.eq_of_getLsbD_eq
  intro i hi
  simp only [BitVec.getLsbD_and, BitVec.getLsbD_append]
  interval_cases i <;> simp

@[simp] theorem xyn_fieldX (t a b c : BitVec 4) : fieldX (t ++ a ++ b ++ c) = a.toFin := by
  unfold fieldX
  congr 1
  apply BitVec.eq_of_getLsbD_eq
  intro i hi
  simp only [BitVec.getLsbD_extractLsb', BitVec.getLsbD_append]
  interval_cases i <;> simp

@[simp] theorem xyn_fieldY (t a b c : BitVec 4) : fieldY (t ++ a ++ b ++ c) = b.toFin := by
  unfold fieldY
  congr 1
  apply BitVec.eq_of_getLsbD_eq
  intro i hi
  simp only [BitVec.getLsbD_extractLsb', BitVec.getLsbD_append]
  interval_cases i <;> simp

@[simp] theorem xyn_fieldN (t a b c : BitVec 4) : fieldN (t ++ a ++ b ++ c) = c := by
  apply BitVec.eq_of_getLsbD_eq
  intro i hi
  simp only [fieldN, BitVec.getLsbD_extractLsb', BitVec.getLsbD_append]
  interval_cases i <;> simp

/-! ## Format N -/

theorem n_mask (t : BitVec 12) (c : BitVec 4) : (t ++ c : Word) &&& 0xFFF0 = t ++ 0#4 := by
  apply BitVec.eq_of_getLsbD_eq
  intro i hi
  simp only [BitVec.getLsbD_and, BitVec.getLsbD_append]
  interval_cases i <;> simp

@[simp] theorem n_field (t : BitVec 12) (c : BitVec 4) : fieldN (t ++ c) = c := by
  apply BitVec.eq_of_getLsbD_eq
  intro i hi
  simp only [fieldN, BitVec.getLsbD_extractLsb', BitVec.getLsbD_append]
  interval_cases i <;> simp

/-! ## Bytes of an opcode (R53) -/

theorem joinBytes_highByte_lowByte (op : Word) : joinBytes (highByte op) (lowByte op) = op := by
  apply BitVec.eq_of_getLsbD_eq
  intro i hi
  simp only [joinBytes, highByte, lowByte, BitVec.getLsbD_append, BitVec.getLsbD_extractLsb']
  interval_cases i <;> simp

@[simp] theorem highByte_joinBytes (hi lo : Byte) : highByte (joinBytes hi lo) = hi := by
  apply BitVec.eq_of_getLsbD_eq
  intro i h
  simp only [joinBytes, highByte, BitVec.getLsbD_append, BitVec.getLsbD_extractLsb']
  interval_cases i <;> simp

@[simp] theorem lowByte_joinBytes (hi lo : Byte) : lowByte (joinBytes hi lo) = lo := by
  apply BitVec.eq_of_getLsbD_eq
  intro i h
  simp only [joinBytes, lowByte, BitVec.getLsbD_append, BitVec.getLsbD_extractLsb']
  interval_cases i <;> simp

/-! ## Masks in numbers (R74, R75) -/

/-- Two words have the same quotient by `2 ^ k` exactly when they agree from bit `k` on. -/
theorem div_eq_iff {a b : Word} {n : Nat} (k : Nat) (hn : n = 2 ^ k) :
    a.toNat / n = b.toNat / n ↔ ∀ i, k ≤ i → a.getLsbD i = b.getLsbD i := by
  subst hn
  constructor
  · intro h i hi
    have := congrArg (Nat.testBit · (i - k)) h
    simpa only [Nat.testBit_div_two_pow, Nat.sub_add_cancel hi, BitVec.testBit_toNat] using this
  · intro h
    apply Nat.eq_of_testBit_eq
    intro i
    simpa only [Nat.testBit_div_two_pow, BitVec.testBit_toNat] using h (i + k) (by omega)

/-- Two words have the same remainder by `2 ^ k` exactly when they agree below bit `k`. -/
theorem mod_eq_iff {a b : Word} {n : Nat} (k : Nat) (hn : n = 2 ^ k) :
    a.toNat % n = b.toNat % n ↔ ∀ i, i < k → a.getLsbD i = b.getLsbD i := by
  subst hn
  constructor
  · intro h i hi
    have := congrArg (Nat.testBit · i) h
    simpa only [Nat.testBit_mod_two_pow, hi, decide_true, Bool.true_and, BitVec.testBit_toNat] using this
  · intro h
    apply Nat.eq_of_testBit_eq
    intro i
    by_cases hi : i < k
    · simpa only [Nat.testBit_mod_two_pow, hi, decide_true, Bool.true_and, BitVec.testBit_toNat] using h i hi
    · simp [Nat.testBit_mod_two_pow, hi]

/-- A mask compares the bits it has, for a value inside the mask. -/
theorem and_mask_eq_iff {op m v : Word} (hv : v &&& m = v) :
    op &&& m = v ↔ ∀ i, i < 16 → m.getLsbD i = true → op.getLsbD i = v.getLsbD i := by
  constructor
  · rintro rfl i - hm
    simp only [BitVec.getLsbD_and, hm, Bool.and_true]
  · intro h
    rw [← hv]
    apply BitVec.eq_of_getLsbD_eq
    intro i hi
    rw [BitVec.getLsbD_and, BitVec.getLsbD_and]
    cases hm : m.getLsbD i
    · simp
    · rw [h i hi hm]

/-- The mask 0xF000 compares the top nibble. -/
theorem and_F000_iff {op v : Word} (hv : v &&& 0xF000 = v) :
    op &&& 0xF000 = v ↔ op.toNat / 4096 = v.toNat / 4096 := by
  rw [and_mask_eq_iff hv, div_eq_iff (n := 4096) 12 rfl]
  constructor
  · intro h i hi
    by_cases hi' : i < 16
    · exact h i hi' (by interval_cases i <;> rfl)
    · rw [BitVec.getLsbD_of_ge _ _ (by omega), BitVec.getLsbD_of_ge _ _ (by omega)]
  · intro h i hi hm
    exact h i (by by_contra hc; interval_cases i <;> simp at hm hc)

/-- The mask 0xF00F compares the top and the bottom nibble. -/
theorem and_F00F_iff {op v : Word} (hv : v &&& 0xF00F = v) :
    op &&& 0xF00F = v ↔ op.toNat / 4096 = v.toNat / 4096 ∧ op.toNat % 16 = v.toNat % 16 := by
  rw [and_mask_eq_iff hv, div_eq_iff (n := 4096) 12 rfl, mod_eq_iff (n := 16) 4 rfl]
  constructor
  · intro h
    refine ⟨fun i hi => ?_, fun i hi => h i (by omega) (by interval_cases i <;> rfl)⟩
    by_cases hi' : i < 16
    · exact h i hi' (by interval_cases i <;> rfl)
    · rw [BitVec.getLsbD_of_ge _ _ (by omega), BitVec.getLsbD_of_ge _ _ (by omega)]
  · intro h i hi hm
    by_cases hi' : 12 ≤ i
    · exact h.1 i hi'
    · exact h.2 i (by by_contra hc; interval_cases i <;> simp at hm hc hi')

/-- The mask 0xF0FF compares the top nibble and the low byte. -/
theorem and_F0FF_iff {op v : Word} (hv : v &&& 0xF0FF = v) :
    op &&& 0xF0FF = v ↔ op.toNat / 4096 = v.toNat / 4096 ∧ op.toNat % 256 = v.toNat % 256 := by
  rw [and_mask_eq_iff hv, div_eq_iff (n := 4096) 12 rfl, mod_eq_iff (n := 256) 8 rfl]
  constructor
  · intro h
    refine ⟨fun i hi => ?_, fun i hi => h i (by omega) (by interval_cases i <;> rfl)⟩
    by_cases hi' : i < 16
    · exact h i hi' (by interval_cases i <;> rfl)
    · rw [BitVec.getLsbD_of_ge _ _ (by omega), BitVec.getLsbD_of_ge _ _ (by omega)]
  · intro h i hi hm
    by_cases hi' : 12 ≤ i
    · exact h.1 i hi'
    · exact h.2 i (by by_contra hc; interval_cases i <;> simp at hm hc hi')

/-- The mask 0xFFF0 compares all but the bottom nibble. -/
theorem and_FFF0_iff {op v : Word} (hv : v &&& 0xFFF0 = v) :
    op &&& 0xFFF0 = v ↔ op.toNat / 16 = v.toNat / 16 := by
  rw [and_mask_eq_iff hv, div_eq_iff (n := 16) 4 rfl]
  constructor
  · intro h i hi
    by_cases hi' : i < 16
    · exact h i hi' (by interval_cases i <;> rfl)
    · rw [BitVec.getLsbD_of_ge _ _ (by omega), BitVec.getLsbD_of_ge _ _ (by omega)]
  · intro h i hi hm
    exact h i (by by_contra hc; interval_cases i <;> simp at hm hc)

/-- The mask 0xFFFF compares the whole word. -/
theorem and_FFFF_iff {op v : Word} : op &&& 0xFFFF = v ↔ op.toNat = v.toNat := by
  rw [show (0xFFFF : Word) = BitVec.allOnes 16 by rfl, BitVec.and_allOnes, BitVec.toNat_eq]

/-! ## The tables -/

/-- Two rows no word can match together: they fix some common bit differently. -/
def Row.apart (r q : Row) : Bool := (r.value &&& (r.mask &&& q.mask)) != (q.value &&& (r.mask &&& q.mask))

/-- Rows that are apart have no word in common (R74). -/
theorem Row.not_both {r q : Row} (h : r.apart q = true) (op : Word) :
    ¬ (r.matchesWord op = true ∧ q.matchesWord op = true) := by
  rintro ⟨hr, hq⟩
  simp only [Row.matchesWord, beq_iff_eq] at hr hq
  simp only [Row.apart, bne_iff_ne, ne_eq] at h
  apply h
  rw [← hr, ← hq]
  simp only [BitVec.and_assoc]
  rw [← BitVec.and_assoc r.mask, BitVec.and_self, BitVec.and_comm r.mask q.mask, ← BitVec.and_assoc q.mask,
    BitVec.and_self]

/-- No two rows of the two tables together are matched by one word. -/
theorem tables_apart : (baseTable ++ schipTable).Pairwise (fun r q => r.apart q = true) := by decide

theorem baseTable_apart : baseTable.Pairwise (fun r q => r.apart q = true) := (List.pairwise_append.mp tables_apart).1

theorem schipTable_apart : schipTable.Pairwise (fun r q => r.apart q = true) :=
  (List.pairwise_append.mp tables_apart).2.1

/-- In a table whose rows are apart, the row a word matches is the row it is looked up as. -/
theorem lookup_of_mem {table : List Row} (ht : table.Pairwise (fun r q => r.apart q = true)) {r : Row} (hr : r ∈ table)
    {op : Word} (hm : r.matchesWord op = true) : lookup table op = some (r.build op) := by
  unfold lookup
  induction table with
  | nil => simp at hr
  | cons q rest ih =>
    rw [List.pairwise_cons] at ht
    by_cases hq : q.matchesWord op = true
    · rcases List.mem_cons.mp hr with rfl | h
      · simp [hq]
      · exact absurd ⟨hq, hm⟩ (Row.not_both (ht.1 _ h) op)
    · rcases List.mem_cons.mp hr with rfl | h
      · exact absurd hm hq
      · simp only [List.find?_cons, Bool.eq_false_iff.mpr hq]
        exact ih ht.2 h

/-- Nothing is found exactly when no row matches. -/
theorem lookup_eq_none {table : List Row} {op : Word} :
    lookup table op = none ↔ ∀ r ∈ table, ¬ r.matchesWord op = true := by
  simp [lookup]

/-- What is found is built by a row that matches. -/
theorem lookup_eq_some {table : List Row} {op : Word} {i : Instr} (h : lookup table op = some i) :
    ∃ r ∈ table, r.matchesWord op = true ∧ r.build op = i := by
  rw [lookup, Option.map_eq_some_iff] at h
  obtain ⟨r, hr, rfl⟩ := h
  exact ⟨r, List.mem_of_find?_eq_some hr, by simpa using List.find?_some hr, rfl⟩

/-- A word that matches a row of the base table decodes by it, in either setting (R75). -/
theorem decode_of_base_row {r : Row} (hr : r ∈ baseTable) {op : Word} (hm : r.matchesWord op = true) (schip : Bool) :
    decode schip op = some (r.build op) := by
  simp [decode, lookup_of_mem baseTable_apart hr hm]

/-- A word that matches a row of the SUPER-CHIP table decodes by it when that table is enabled, and is no instruction
otherwise (R76, R197). -/
theorem decode_of_schip_row {r : Row} (hr : r ∈ schipTable) {op : Word} (hm : r.matchesWord op = true) :
    decode true op = some (r.build op) ∧ decode false op = none := by
  have h : lookup baseTable op = none := by
    rw [lookup_eq_none]
    intro q hq hqm
    exact Row.not_both ((List.pairwise_append.mp tables_apart).2.2 q hq r hr) op ⟨hqm, hm⟩
  simp [decode, h, lookup_of_mem schipTable_apart hr hm]

end Sys2Proof
end

