-- ==== Sys2Proof/Laws/PerInstr.lean ====
section
/-! SUPPORT. One lemma per instruction: its opcode matches its own row of its own table, and that row reads every operand
back (`30_encoding.md` R72, R75, R76). -/

namespace Sys2Proof.Laws

/-- The encoded instruction matches a row of its table (the SUPER-CHIP table exactly for a SUPER-CHIP instruction), and
that row builds the instruction with all its operands. -/
def EncodeMatchesRow.Statement (i : Instr) : Prop :=
  ∃ r ∈ (if i.isSchip then schipTable else baseTable), r.matchesWord (encode i) = true ∧ r.build (encode i) = i

theorem EncodeMatchesRow.cls : EncodeMatchesRow.Statement .cls :=
  ⟨_, List.mem_of_getElem? (i := 0) rfl, ⟨rfl, rfl⟩⟩

theorem EncodeMatchesRow.ret : EncodeMatchesRow.Statement .ret :=
  ⟨_, List.mem_of_getElem? (i := 1) rfl, ⟨rfl, rfl⟩⟩

theorem EncodeMatchesRow.jp (nnn : BitVec 12) : EncodeMatchesRow.Statement (.jp nnn) :=
  ⟨_, List.mem_of_getElem? (i := 2) rfl, ⟨beq_iff_eq.mpr ((nnn_mask 0x1#4 nnn).trans rfl), congrArg Instr.jp (nnn_field 0x1#4 nnn)⟩⟩

theorem EncodeMatchesRow.call (nnn : BitVec 12) : EncodeMatchesRow.Statement (.call nnn) :=
  ⟨_, List.mem_of_getElem? (i := 3) rfl, ⟨beq_iff_eq.mpr ((nnn_mask 0x2#4 nnn).trans rfl), congrArg Instr.call (nnn_field 0x2#4 nnn)⟩⟩

theorem EncodeMatchesRow.seImm (x : Reg) (nn : Byte) : EncodeMatchesRow.Statement (.seImm x nn) :=
  ⟨_, List.mem_of_getElem? (i := 4) rfl, ⟨beq_iff_eq.mpr ((xnn_mask 0x3#4 (regBits x) nn).trans rfl),
    congrArg₂ Instr.seImm (xnn_fieldX 0x3#4 (regBits x) nn) (xnn_fieldNN 0x3#4 (regBits x) nn)⟩⟩

theorem EncodeMatchesRow.sneImm (x : Reg) (nn : Byte) : EncodeMatchesRow.Statement (.sneImm x nn) :=
  ⟨_, List.mem_of_getElem? (i := 5) rfl, ⟨beq_iff_eq.mpr ((xnn_mask 0x4#4 (regBits x) nn).trans rfl),
    congrArg₂ Instr.sneImm (xnn_fieldX 0x4#4 (regBits x) nn) (xnn_fieldNN 0x4#4 (regBits x) nn)⟩⟩

theorem EncodeMatchesRow.seReg (x y : Reg) : EncodeMatchesRow.Statement (.seReg x y) :=
  ⟨_, List.mem_of_getElem? (i := 6) rfl, ⟨beq_iff_eq.mpr ((xy_mask 0x5#4 (regBits x) (regBits y) 0x0#4).trans rfl),
    congrArg₂ Instr.seReg (xyn_fieldX 0x5#4 (regBits x) (regBits y) 0x0#4) (xyn_fieldY 0x5#4 (regBits x) (regBits y) 0x0#4)⟩⟩

theorem EncodeMatchesRow.ldImm (x : Reg) (nn : Byte) : EncodeMatchesRow.Statement (.ldImm x nn) :=
  ⟨_, List.mem_of_getElem? (i := 7) rfl, ⟨beq_iff_eq.mpr ((xnn_mask 0x6#4 (regBits x) nn).trans rfl),
    congrArg₂ Instr.ldImm (xnn_fieldX 0x6#4 (regBits x) nn) (xnn_fieldNN 0x6#4 (regBits x) nn)⟩⟩

theorem EncodeMatchesRow.addImm (x : Reg) (nn : Byte) : EncodeMatchesRow.Statement (.addImm x nn) :=
  ⟨_, List.mem_of_getElem? (i := 8) rfl, ⟨beq_iff_eq.mpr ((xnn_mask 0x7#4 (regBits x) nn).trans rfl),
    congrArg₂ Instr.addImm (xnn_fieldX 0x7#4 (regBits x) nn) (xnn_fieldNN 0x7#4 (regBits x) nn)⟩⟩

theorem EncodeMatchesRow.ldReg (x y : Reg) : EncodeMatchesRow.Statement (.ldReg x y) :=
  ⟨_, List.mem_of_getElem? (i := 9) rfl, ⟨beq_iff_eq.mpr ((xy_mask 0x8#4 (regBits x) (regBits y) 0x0#4).trans rfl),
    congrArg₂ Instr.ldReg (xyn_fieldX 0x8#4 (regBits x) (regBits y) 0x0#4) (xyn_fieldY 0x8#4 (regBits x) (regBits y) 0x0#4)⟩⟩

theorem EncodeMatchesRow.orReg (x y : Reg) : EncodeMatchesRow.Statement (.orReg x y) :=
  ⟨_, List.mem_of_getElem? (i := 10) rfl, ⟨beq_iff_eq.mpr ((xy_mask 0x8#4 (regBits x) (regBits y) 0x1#4).trans rfl),
    congrArg₂ Instr.orReg (xyn_fieldX 0x8#4 (regBits x) (regBits y) 0x1#4) (xyn_fieldY 0x8#4 (regBits x) (regBits y) 0x1#4)⟩⟩

theorem EncodeMatchesRow.andReg (x y : Reg) : EncodeMatchesRow.Statement (.andReg x y) :=
  ⟨_, List.mem_of_getElem? (i := 11) rfl, ⟨beq_iff_eq.mpr ((xy_mask 0x8#4 (regBits x) (regBits y) 0x2#4).trans rfl),
    congrArg₂ Instr.andReg (xyn_fieldX 0x8#4 (regBits x) (regBits y) 0x2#4) (xyn_fieldY 0x8#4 (regBits x) (regBits y) 0x2#4)⟩⟩

theorem EncodeMatchesRow.xorReg (x y : Reg) : EncodeMatchesRow.Statement (.xorReg x y) :=
  ⟨_, List.mem_of_getElem? (i := 12) rfl, ⟨beq_iff_eq.mpr ((xy_mask 0x8#4 (regBits x) (regBits y) 0x3#4).trans rfl),
    congrArg₂ Instr.xorReg (xyn_fieldX 0x8#4 (regBits x) (regBits y) 0x3#4) (xyn_fieldY 0x8#4 (regBits x) (regBits y) 0x3#4)⟩⟩

theorem EncodeMatchesRow.addReg (x y : Reg) : EncodeMatchesRow.Statement (.addReg x y) :=
  ⟨_, List.mem_of_getElem? (i := 13) rfl, ⟨beq_iff_eq.mpr ((xy_mask 0x8#4 (regBits x) (regBits y) 0x4#4).trans rfl),
    congrArg₂ Instr.addReg (xyn_fieldX 0x8#4 (regBits x) (regBits y) 0x4#4) (xyn_fieldY 0x8#4 (regBits x) (regBits y) 0x4#4)⟩⟩

theorem EncodeMatchesRow.sub (x y : Reg) : EncodeMatchesRow.Statement (.sub x y) :=
  ⟨_, List.mem_of_getElem? (i := 14) rfl, ⟨beq_iff_eq.mpr ((xy_mask 0x8#4 (regBits x) (regBits y) 0x5#4).trans rfl),
    congrArg₂ Instr.sub (xyn_fieldX 0x8#4 (regBits x) (regBits y) 0x5#4) (xyn_fieldY 0x8#4 (regBits x) (regBits y) 0x5#4)⟩⟩

theorem EncodeMatchesRow.shr (x y : Reg) : EncodeMatchesRow.Statement (.shr x y) :=
  ⟨_, List.mem_of_getElem? (i := 15) rfl, ⟨beq_iff_eq.mpr ((xy_mask 0x8#4 (regBits x) (regBits y) 0x6#4).trans rfl),
    congrArg₂ Instr.shr (xyn_fieldX 0x8#4 (regBits x) (regBits y) 0x6#4) (xyn_fieldY 0x8#4 (regBits x) (regBits y) 0x6#4)⟩⟩

theorem EncodeMatchesRow.subn (x y : Reg) : EncodeMatchesRow.Statement (.subn x y) :=
  ⟨_, List.mem_of_getElem? (i := 16) rfl, ⟨beq_iff_eq.mpr ((xy_mask 0x8#4 (regBits x) (regBits y) 0x7#4).trans rfl),
    congrArg₂ Instr.subn (xyn_fieldX 0x8#4 (regBits x) (regBits y) 0x7#4) (xyn_fieldY 0x8#4 (regBits x) (regBits y) 0x7#4)⟩⟩

theorem EncodeMatchesRow.shl (x y : Reg) : EncodeMatchesRow.Statement (.shl x y) :=
  ⟨_, List.mem_of_getElem? (i := 17) rfl, ⟨beq_iff_eq.mpr ((xy_mask 0x8#4 (regBits x) (regBits y) 0xE#4).trans rfl),
    congrArg₂ Instr.shl (xyn_fieldX 0x8#4 (regBits x) (regBits y) 0xE#4) (xyn_fieldY 0x8#4 (regBits x) (regBits y) 0xE#4)⟩⟩

theorem EncodeMatchesRow.sneReg (x y : Reg) : EncodeMatchesRow.Statement (.sneReg x y) :=
  ⟨_, List.mem_of_getElem? (i := 18) rfl, ⟨beq_iff_eq.mpr ((xy_mask 0x9#4 (regBits x) (regBits y) 0x0#4).trans rfl),
    congrArg₂ Instr.sneReg (xyn_fieldX 0x9#4 (regBits x) (regBits y) 0x0#4) (xyn_fieldY 0x9#4 (regBits x) (regBits y) 0x0#4)⟩⟩

theorem EncodeMatchesRow.ldI (nnn : BitVec 12) : EncodeMatchesRow.Statement (.ldI nnn) :=
  ⟨_, List.mem_of_getElem? (i := 19) rfl, ⟨beq_iff_eq.mpr ((nnn_mask 0xA#4 nnn).trans rfl), congrArg Instr.ldI (nnn_field 0xA#4 nnn)⟩⟩

theorem EncodeMatchesRow.jpV0 (nnn : BitVec 12) : EncodeMatchesRow.Statement (.jpV0 nnn) :=
  ⟨_, List.mem_of_getElem? (i := 20) rfl, ⟨beq_iff_eq.mpr ((nnn_mask 0xB#4 nnn).trans rfl), congrArg Instr.jpV0 (nnn_field 0xB#4 nnn)⟩⟩

theorem EncodeMatchesRow.rnd (x : Reg) (nn : Byte) : EncodeMatchesRow.Statement (.rnd x nn) :=
  ⟨_, List.mem_of_getElem? (i := 21) rfl, ⟨beq_iff_eq.mpr ((xnn_mask 0xC#4 (regBits x) nn).trans rfl),
    congrArg₂ Instr.rnd (xnn_fieldX 0xC#4 (regBits x) nn) (xnn_fieldNN 0xC#4 (regBits x) nn)⟩⟩

theorem EncodeMatchesRow.drw (x y : Reg) (n : BitVec 4) : EncodeMatchesRow.Statement (.drw x y n) :=
  ⟨_, List.mem_of_getElem? (i := 22) rfl, ⟨beq_iff_eq.mpr ((xyn_mask 0xD#4 (regBits x) (regBits y) n).trans rfl), by
    simp only [encode, xyn_fieldX, xyn_fieldY, xyn_fieldN, regBits_toFin]⟩⟩

theorem EncodeMatchesRow.skp (x : Reg) : EncodeMatchesRow.Statement (.skp x) :=
  ⟨_, List.mem_of_getElem? (i := 23) rfl, ⟨beq_iff_eq.mpr ((x_mask 0xE#4 (regBits x) 0x9E#8).trans rfl), congrArg Instr.skp (xnn_fieldX 0xE#4 (regBits x) 0x9E#8)⟩⟩

theorem EncodeMatchesRow.sknp (x : Reg) : EncodeMatchesRow.Statement (.sknp x) :=
  ⟨_, List.mem_of_getElem? (i := 24) rfl, ⟨beq_iff_eq.mpr ((x_mask 0xE#4 (regBits x) 0xA1#8).trans rfl), congrArg Instr.sknp (xnn_fieldX 0xE#4 (regBits x) 0xA1#8)⟩⟩

theorem EncodeMatchesRow.ldVxDt (x : Reg) : EncodeMatchesRow.Statement (.ldVxDt x) :=
  ⟨_, List.mem_of_getElem? (i := 25) rfl, ⟨beq_iff_eq.mpr ((x_mask 0xF#4 (regBits x) 0x07#8).trans rfl), congrArg Instr.ldVxDt (xnn_fieldX 0xF#4 (regBits x) 0x07#8)⟩⟩

theorem EncodeMatchesRow.ldVxK (x : Reg) : EncodeMatchesRow.Statement (.ldVxK x) :=
  ⟨_, List.mem_of_getElem? (i := 26) rfl, ⟨beq_iff_eq.mpr ((x_mask 0xF#4 (regBits x) 0x0A#8).trans rfl), congrArg Instr.ldVxK (xnn_fieldX 0xF#4 (regBits x) 0x0A#8)⟩⟩

theorem EncodeMatchesRow.ldDtVx (x : Reg) : EncodeMatchesRow.Statement (.ldDtVx x) :=
  ⟨_, List.mem_of_getElem? (i := 27) rfl, ⟨beq_iff_eq.mpr ((x_mask 0xF#4 (regBits x) 0x15#8).trans rfl), congrArg Instr.ldDtVx (xnn_fieldX 0xF#4 (regBits x) 0x15#8)⟩⟩

theorem EncodeMatchesRow.ldStVx (x : Reg) : EncodeMatchesRow.Statement (.ldStVx x) :=
  ⟨_, List.mem_of_getElem? (i := 28) rfl, ⟨beq_iff_eq.mpr ((x_mask 0xF#4 (regBits x) 0x18#8).trans rfl), congrArg Instr.ldStVx (xnn_fieldX 0xF#4 (regBits x) 0x18#8)⟩⟩

theorem EncodeMatchesRow.addI (x : Reg) : EncodeMatchesRow.Statement (.addI x) :=
  ⟨_, List.mem_of_getElem? (i := 29) rfl, ⟨beq_iff_eq.mpr ((x_mask 0xF#4 (regBits x) 0x1E#8).trans rfl), congrArg Instr.addI (xnn_fieldX 0xF#4 (regBits x) 0x1E#8)⟩⟩

theorem EncodeMatchesRow.ldF (x : Reg) : EncodeMatchesRow.Statement (.ldF x) :=
  ⟨_, List.mem_of_getElem? (i := 30) rfl, ⟨beq_iff_eq.mpr ((x_mask 0xF#4 (regBits x) 0x29#8).trans rfl), congrArg Instr.ldF (xnn_fieldX 0xF#4 (regBits x) 0x29#8)⟩⟩

theorem EncodeMatchesRow.ldB (x : Reg) : EncodeMatchesRow.Statement (.ldB x) :=
  ⟨_, List.mem_of_getElem? (i := 31) rfl, ⟨beq_iff_eq.mpr ((x_mask 0xF#4 (regBits x) 0x33#8).trans rfl), congrArg Instr.ldB (xnn_fieldX 0xF#4 (regBits x) 0x33#8)⟩⟩

theorem EncodeMatchesRow.storeRegs (x : Reg) : EncodeMatchesRow.Statement (.storeRegs x) :=
  ⟨_, List.mem_of_getElem? (i := 32) rfl, ⟨beq_iff_eq.mpr ((x_mask 0xF#4 (regBits x) 0x55#8).trans rfl), congrArg Instr.storeRegs (xnn_fieldX 0xF#4 (regBits x) 0x55#8)⟩⟩

theorem EncodeMatchesRow.loadRegs (x : Reg) : EncodeMatchesRow.Statement (.loadRegs x) :=
  ⟨_, List.mem_of_getElem? (i := 33) rfl, ⟨beq_iff_eq.mpr ((x_mask 0xF#4 (regBits x) 0x65#8).trans rfl), congrArg Instr.loadRegs (xnn_fieldX 0xF#4 (regBits x) 0x65#8)⟩⟩

theorem EncodeMatchesRow.scd (n : BitVec 4) : EncodeMatchesRow.Statement (.scd n) :=
  ⟨_, List.mem_of_getElem? (i := 0) rfl, ⟨beq_iff_eq.mpr ((n_mask 0x00C#12 n).trans rfl), congrArg Instr.scd (n_field 0x00C#12 n)⟩⟩

theorem EncodeMatchesRow.scr : EncodeMatchesRow.Statement .scr :=
  ⟨_, List.mem_of_getElem? (i := 1) rfl, ⟨rfl, rfl⟩⟩

theorem EncodeMatchesRow.exit : EncodeMatchesRow.Statement .exit :=
  ⟨_, List.mem_of_getElem? (i := 2) rfl, ⟨rfl, rfl⟩⟩

theorem EncodeMatchesRow.low : EncodeMatchesRow.Statement .low :=
  ⟨_, List.mem_of_getElem? (i := 3) rfl, ⟨rfl, rfl⟩⟩

theorem EncodeMatchesRow.high : EncodeMatchesRow.Statement .high :=
  ⟨_, List.mem_of_getElem? (i := 4) rfl, ⟨rfl, rfl⟩⟩

theorem EncodeMatchesRow.saveRpl (x : Reg) : EncodeMatchesRow.Statement (.saveRpl x) :=
  ⟨_, List.mem_of_getElem? (i := 5) rfl, ⟨beq_iff_eq.mpr ((x_mask 0xF#4 (regBits x) 0x75#8).trans rfl), congrArg Instr.saveRpl (xnn_fieldX 0xF#4 (regBits x) 0x75#8)⟩⟩

theorem EncodeMatchesRow.restoreRpl (x : Reg) : EncodeMatchesRow.Statement (.restoreRpl x) :=
  ⟨_, List.mem_of_getElem? (i := 6) rfl, ⟨beq_iff_eq.mpr ((x_mask 0xF#4 (regBits x) 0x85#8).trans rfl), congrArg Instr.restoreRpl (xnn_fieldX 0xF#4 (regBits x) 0x85#8)⟩⟩

end Sys2Proof.Laws
end

