-- ==== Sys2Proof/Machine/HostOps.lean ====
section
/-! DEFINITION. The host interface (`50_host_interface.md`): the ten operations, each one atomic transition, and a run as
a sequence of them (R221). -/

namespace Sys2Proof.Machine

/-- `ROM_MAX` (R4). -/
def romMax : Nat := 3584

/-- The ten operations (R210). `key` is 8 bits wide, so that a bad key can be presented (R215, D32). -/
inductive HostOp where
  | load (rom : List Byte)
  | cycle
  | tickDelayTimer
  | tickSoundTimer
  | press (key : Byte)
  | release (key : Byte)
  | framebufferSnapshot
  | currentOpcode
  | programCounter
  | disassembledProgram
  deriving DecidableEq, Repr

/-- What an operation returns. -/
inductive Reply where
  /-- `Ok` (R10). -/
  | ok
  /-- `Err(kind)` (R240). -/
  | err (e : ErrorKind)
  /-- An operation that returns nothing (R213). -/
  | nothing
  /-- `tick_sound_timer`: a beep should sound (R214). -/
  | beep (b : Bool)
  /-- `framebuffer_snapshot` (R217). -/
  | bytes (l : List Byte)
  /-- `current_opcode`, `program_counter` (R218, R219). -/
  | word (w : Word)
  /-- `disassembled_program` (R220). -/
  | words (l : List Word)
  deriving DecidableEq, Repr

/-- The state after `load(rom)` (R211, R35): everything at its power-on value but `RPL`, and `rom` at 0x200. The count of
draws goes on, so that no draw is used twice. -/
def State.loaded (s : State) (rom : List Byte) : State :=
  { State.powerOn s.cfg with RPL := s.RPL, draws := s.draws, mem := Memory.writeAll s.cfg [] progBase rom }

/-- `load(rom)` (R211): a ROM longer than 3584 bytes is refused (D25). -/
def load (rom : List Byte) (s : State) : Result :=
  if rom.length ≤ romMax then .next (s.loaded rom) else .refused (.romTooLong rom.length)

/-- A timer one tick later (R213, R214). -/
def ticked (t : Byte) : Byte := if t = 0 then 0 else t - 1

/-- `tick_delay_timer()` (R213). -/
def tickDelayTimer (s : State) : State := s.setDT (ticked s.DT)

/-- The state after `tick_sound_timer()` (R214). -/
def tickSoundTimer (s : State) : State := s.setST (ticked s.ST)

/-- What `tick_sound_timer()` returns (R214): `ST` was non-zero on entry (D22). -/
def State.beeps (s : State) : Bool := s.ST != 0

/-- `keys[key] <- down`, or InvalidKeycode with no state change (R215, R216, D23). -/
def setKey (key : Byte) (down : Bool) (s : State) : State × Reply :=
  if h : key.toNat < 16 then (s.setKeys (s.keys.set key.toNat down), .ok) else (s, .err .invalidKeycode)

/-- `press(key)` (R215). -/
def press (key : Byte) (s : State) : State × Reply := setKey key true s

/-- `release(key)` (R216). -/
def release (key : Byte) (s : State) : State × Reply := setKey key false s

/-- `framebuffer_snapshot()` (R217): a full copy. -/
def State.snapshot (s : State) : List Byte := s.FB.toList

/-- Word `k` of `disassembled_program()` (R220): the opcode at 0x200 + 2k. -/
def State.listedWord (s : State) (k : Nat) : Word := s.wordAt (progBase + 2 * k)

/-- `disassembled_program()` (R220): 1792 words. -/
def State.disassembled (s : State) : List Word := (List.range 1792).map s.listedWord

/-- What a `cycle` returns (R212). -/
def CycleResult.reply : CycleResult → Reply
  | .ok => .ok
  | .err e => .err e

/-- One host operation (R210, R221): the state after it and what it returns, a fault (only in `cycle`) or a refusal (only
in `load`). -/
def perform (o : HostOp) (s : State) : Host.Outcome (State × Reply) Fault Refusal :=
  match o with
  | .load rom =>
    match load rom s with
    | .next t => .next (t, .ok)
    | .fault f => .fault f
    | .refused r => .refused r
  | .cycle =>
    match step s with
    | .next t => .next (t, t.cycleResult.reply)
    | .fault f => .fault f
    | .refused r => .refused r
  | .tickDelayTimer => .next (tickDelayTimer s, .nothing)
  | .tickSoundTimer => .next (tickSoundTimer s, .beep s.beeps)
  | .press key => .next (press key s)
  | .release key => .next (release key s)
  | .framebufferSnapshot => .next (s, .bytes s.snapshot)
  | .currentOpcode => .next (s, .word s.IR)
  | .programCounter => .next (s, .word s.pc)
  | .disassembledProgram => .next (s, .words s.disassembled)

/-- A run: the operations in order, each on the state the one before left, with the replies (R221). A fault is absorbing
(R249): no later operation has a result. -/
def runOps : List HostOp → State → Host.Outcome (State × List Reply) Fault Refusal
  | [], s => .next (s, [])
  | o :: rest, s =>
    match perform o s with
    | .next (t, r) =>
      match runOps rest t with
      | .next (u, rs) => .next (u, r :: rs)
      | .fault f => .fault f
      | .refused r => .refused r
    | .fault f => .fault f
    | .refused r => .refused r

end Sys2Proof.Machine
end

