-- ==== Sys2Proof/Safety.lean ====
section
/-! DEFINITION. The terms statements use: what an instruction may change, the invariant of the machine, when a step
faults, and the pixel-level reading of the display. Nothing here is called by the machine. -/

namespace Sys2Proof.Machine

/-! ## Frames -/

/-- The elements of `State`: the thirteen of `10_state.md` R20 and the model's own three. -/
inductive Elem where
  | mem | V | I | pc | stack | sp | DT | ST | keys | FB | hires | RPL | IR | cfg | draws | cycleResult
  deriving DecidableEq, Repr

/-- The element is the same in both states; memory byte by byte, through reads. -/
def Elem.same : Elem → State → State → Prop
  | .mem, s, t => ∀ a, t.readByte a = s.readByte a
  | .V, s, t => ∀ r, t.reg r = s.reg r
  | .I, s, t => t.I = s.I
  | .pc, s, t => t.pc = s.pc
  | .stack, s, t => ∀ k, t.slot k = s.slot k
  | .sp, s, t => t.sp = s.sp
  | .DT, s, t => t.DT = s.DT
  | .ST, s, t => t.ST = s.ST
  | .keys, s, t => ∀ k, t.keyDown k = s.keyDown k
  | .FB, s, t => t.FB = s.FB
  | .hires, s, t => t.hires = s.hires
  | .RPL, s, t => t.RPL = s.RPL
  | .IR, s, t => t.IR = s.IR
  | .cfg, s, t => t.cfg = s.cfg
  | .draws, s, t => t.draws = s.draws
  | .cycleResult, s, t => t.cycleResult = s.cycleResult

/-- Every element outside `changed` is the same in `t` as in `s`. -/
def Frame (changed : List Elem) (s t : State) : Prop := ∀ e, e ∉ changed → e.same s t

/-- Every register outside `changed` is the same in `t` as in `s`. -/
def RegFrame (changed : List Reg) (s t : State) : Prop := ∀ r, r ∉ changed → t.reg r = s.reg r

/-- The instruction completes: `exec` answers a next state, and `P` holds of it. -/
def Completes (i : Instr) (s : State) (P : State → Prop) : Prop := ∃ t, exec i s = .next t ∧ P t

/-- The instruction reports the error `e` and changes nothing else (R251). -/
def Reports (i : Instr) (s : State) (e : ErrorKind) : Prop := exec i s = .next (s.setCycleResult (.err e))

end Sys2Proof.Machine

namespace Sys2Proof

open Machine in
/-- The elements the "written by" column of R20 lets an instruction's handler write. The fetch's writes of `IR` and `pc`
are not the handler's; `cycleResult` belongs to the instructions that can report an error (R240), `draws` to CXNN. -/
def Instr.writes : Instr → List Elem
  | .cls | .scd _ | .scr => [.FB]
  | .ret => [.pc, .sp, .cycleResult]
  | .jp _ | .jpV0 _ | .seImm _ _ | .sneImm _ _ | .seReg _ _ | .sneReg _ _ | .skp _ | .sknp _ => [.pc]
  | .call _ => [.pc, .sp, .stack, .cycleResult]
  | .ldImm _ _ | .addImm _ _ | .ldReg _ _ | .orReg _ _ | .andReg _ _ | .xorReg _ _ | .addReg _ _ | .sub _ _
  | .shr _ _ | .subn _ _ | .shl _ _ | .ldVxDt _ | .loadRegs _ => [.V]
  | .rnd _ _ => [.V, .draws]
  | .drw _ _ _ => [.V, .FB]
  | .ldI _ | .ldF _ => [.I]
  | .addI _ => [.I, .V]
  | .ldVxK _ => [.V, .pc]
  | .ldDtVx _ => [.DT]
  | .ldStVx _ => [.ST]
  | .ldB _ | .storeRegs _ => [.mem]
  | .exit => [.cycleResult]
  | .low | .high => [.hires]
  | .saveRpl _ => [.RPL, .cycleResult]
  | .restoreRpl _ => [.V, .cycleResult]

/-- The seven instructions that write VF as a flag (R22). -/
def Instr.writesFlag : Instr → Bool
  | .addReg _ _ | .sub _ _ | .shr _ _ | .subn _ _ | .shl _ _ | .drw _ _ _ | .addI _ => true
  | .cls | .ret | .jp _ | .call _ | .seImm _ _ | .sneImm _ _ | .seReg _ _ | .ldImm _ _ | .addImm _ _
  | .ldReg _ _ | .orReg _ _ | .andReg _ _ | .xorReg _ _ | .sneReg _ _ | .ldI _ | .jpV0 _ | .rnd _ _ | .skp _
  | .sknp _ | .ldVxDt _ | .ldVxK _ | .ldDtVx _ | .ldStVx _ | .ldF _ | .ldB _ | .storeRegs _ | .loadRegs _
  | .scd _ | .scr | .exit | .low | .high | .saveRpl _ | .restoreRpl _ => false

/-- The register `r` is a destination the instruction names in its fields (the "writes" of the instruction rules, the flag
apart): `V[x]`, or `V[0..x]` for FX65 and FX85. -/
def Instr.names (i : Instr) (r : Reg) : Prop :=
  match i with
  | .ldImm x _ | .addImm x _ | .ldReg x _ | .orReg x _ | .andReg x _ | .xorReg x _ | .addReg x _ | .sub x _
  | .shr x _ | .subn x _ | .shl x _ | .rnd x _ | .ldVxDt x | .ldVxK x => r = x
  | .loadRegs x | .restoreRpl x => r ≤ x
  | .cls | .ret | .jp _ | .call _ | .seImm _ _ | .sneImm _ _ | .seReg _ _ | .sneReg _ _ | .ldI _ | .jpV0 _
  | .drw _ _ _ | .skp _ | .sknp _ | .ldDtVx _ | .ldStVx _ | .addI _ | .ldF _ | .ldB _ | .storeRegs _ | .scd _
  | .scr | .exit | .low | .high | .saveRpl _ => False

/-- How many bytes, from the index register's address on, the instruction stores (R54): 3 for FX33, `x + 1` for FX55, none
for any other. -/
def Instr.storedBytes : Instr → Nat
  | .ldB _ => 3
  | .storeRegs x => x.val + 1
  | .cls | .ret | .jp _ | .call _ | .seImm _ _ | .sneImm _ _ | .seReg _ _ | .ldImm _ _ | .addImm _ _ | .ldReg _ _
  | .orReg _ _ | .andReg _ _ | .xorReg _ _ | .addReg _ _ | .sub _ _ | .shr _ _ | .subn _ _ | .shl _ _
  | .sneReg _ _ | .ldI _ | .jpV0 _ | .rnd _ _ | .drw _ _ _ | .skp _ | .sknp _ | .ldVxDt _ | .ldVxK _ | .ldDtVx _
  | .ldStVx _ | .addI _ | .ldF _ | .loadRegs _ | .scd _ | .scr | .exit | .low | .high | .saveRpl _
  | .restoreRpl _ => 0

end Sys2Proof

namespace Sys2Proof.Machine

/-! ## Encodings -/

/-- Every word with `(op & mask) == value` decodes, with `Q_SCHIP` false and true alike, to the instruction `build`
reads from it (R74, R75). -/
def EncodedAs (mask value : Word) (build : Word → Instr) : Prop :=
  ∀ schip op, op &&& mask = value → decode schip op = some (build op)

/-- The same for a SUPER-CHIP row: only with `Q_SCHIP` true (R76, R197). -/
def EncodedAsSchip (mask value : Word) (build : Word → Instr) : Prop :=
  ∀ op, op &&& mask = value → decode true op = some (build op) ∧ decode false op = none

/-- The words that decode to no instruction, as R77 lists them group by group. -/
def IllegalWord (schip : Bool) (op : Word) : Prop :=
  let top := op.toNat / 4096
  let n := op.toNat % 16
  let nn := op.toNat % 256
  (top = 0 ∧ op.toNat ≠ 0x00E0 ∧ op.toNat ≠ 0x00EE ∧
    ¬ (schip = true ∧ ((0x00C0 ≤ op.toNat ∧ op.toNat ≤ 0x00CF) ∨ op.toNat ∈ [0x00FB, 0x00FD, 0x00FE, 0x00FF]))) ∨
  (top = 5 ∧ n ≠ 0) ∨
  (top = 8 ∧ n ∈ [0x8, 0x9, 0xA, 0xB, 0xC, 0xD, 0xF]) ∨
  (top = 9 ∧ n ≠ 0) ∨
  (top = 0xE ∧ nn ∉ [0x9E, 0xA1]) ∨
  (top = 0xF ∧ nn ∉ [0x07, 0x0A, 0x15, 0x18, 0x1E, 0x29, 0x33, 0x55, 0x65] ∧ ¬ (schip = true ∧ nn ∈ [0x75, 0x85]))

/-! ## The invariant -/

/-- What holds of every state a machine can reach (R23: the index register; R24: the largest program counter; R27: slot 0
is never written, and a return address is the address after a call; the canonical form of memory). -/
structure State.Inv (s : State) : Prop where
  /-- Memory is in its canonical form. -/
  mem : Memory.wf s.cfg s.mem = true
  /-- The font lies inside memory. -/
  cfg : s.cfg.wf = true
  /-- "every reachable value of `I` is at most 0x0FFF" (R23). -/
  I : s.I.toNat ≤ 0x0FFF
  /-- "the largest value any instruction can write is 0x0FFF + 0xFF = 0x10FE" (R24). -/
  pc : s.pc.toNat ≤ 0x10FE
  /-- A pushed address is that of a call plus 2, and a call is fetched at 0x0FFE at the latest (R24, R74, R112). -/
  slots : ∀ k, (s.slot k).toNat ≤ 0x1000
  /-- "slot 0 is never written by a call" (R27). -/
  slot0 : s.slot 0 = 0

/-! ## Faults -/

/-- The sprite of DXYN has a row below row 31 (R103). -/
def State.spriteBelow (s : State) (y : Reg) (n : BitVec 4) : Prop :=
  1 ≤ n.toNat ∧ 31 < startRow (s.reg y) + n.toNat - 1

/-- The instruction `i`, executed in a state with these registers, ends in the fault `f` (R249). -/
def FaultCause (i : Instr) (s : State) (f : Fault) : Prop :=
  match i with
  | .drw _ y n =>
    (1 ≤ n.toNat ∧ 0xFFF < s.base + n.toNat - 1 ∧ f = .addressOutOfRange .mem 0x1000) ∨
    (¬ (1 ≤ n.toNat ∧ 0xFFF < s.base + n.toNat - 1) ∧ s.cfg.rowOverflow = .fault ∧ s.spriteBelow y n ∧
      f = .addressOutOfRange .frameBuffer 256)
  | .ldB _ => 0xFFF < s.base + 2 ∧ f = .addressOutOfRange .mem 0x1000
  | .storeRegs x | .loadRegs x => 0xFFF < s.base + x.val ∧ f = .addressOutOfRange .mem 0x1000
  | .cls | .ret | .jp _ | .call _ | .seImm _ _ | .sneImm _ _ | .seReg _ _ | .ldImm _ _ | .addImm _ _
  | .ldReg _ _ | .orReg _ _ | .andReg _ _ | .xorReg _ _ | .addReg _ _ | .sub _ _ | .shr _ _ | .subn _ _
  | .shl _ _ | .sneReg _ _ | .ldI _ | .jpV0 _ | .rnd _ _ | .skp _ | .sknp _ | .ldVxDt _ | .ldVxK _ | .ldDtVx _
  | .ldStVx _ | .addI _ | .ldF _ | .scd _ | .scr | .exit | .low | .high | .saveRpl _ | .restoreRpl _ => False

/-! ## The display, pixel by pixel -/

/-- DXYN with the registers of `s` draws a 1 at column `c` and row `r` (R102): some sprite row is drawn on `r` (R103), `c`
is one of its 8 columns, and the sprite's bit there is 1. -/
def State.spriteLit (s : State) (x y : Reg) (n : BitVec 4) (c r : Nat) : Prop :=
  ∃ row, row < n.toNat ∧ destRow s.cfg.rowOverflow (startRow (s.reg y)) row = some r ∧
    startColumn (s.reg x) ≤ c ∧ c ≤ startColumn (s.reg x) + 7 ∧
    (s.readByte (s.base + row)).getLsbD (7 - (c - startColumn (s.reg x))) = true

/-- DXYN neither leaves memory nor, under `DRAW_ROW_OVERFLOW = Fault`, the screen. -/
def State.drawable (s : State) (y : Reg) (n : BitVec 4) : Prop :=
  (n.toNat = 0 ∨ s.base + n.toNat - 1 ≤ 0xFFF) ∧ ¬ (s.cfg.rowOverflow = .fault ∧ s.spriteBelow y n)

/-! ## What no rule reads -/

/-- Apply `f` to what a next outcome holds: the state of a step, or the state and the reply of a host operation. -/
def mapNext {α : Type} (f : α → α) : Host.Outcome α Fault Refusal → Host.Outcome α Fault Refusal
  | .next s => .next (f s)
  | .fault f' => .fault f'
  | .refused r => .refused r

/-- The same machine built with other values of the three inert inputs (R5, R79). -/
def State.withQuirks (shift jump loadStore : Bool) (s : State) : State :=
  { s with cfg := { s.cfg with qShift := shift, qJump := jump, qLoadStore := loadStore } }

/-- Forget `hires` and `ST`, which no instruction reads (R28, R31). -/
def State.forgetInert (s : State) : State := (s.setHires false).setST 0

/-- Forget besides what every fetch overwrites and no instruction reads: `IR` (R33) and the latest cycle's result. -/
def State.forgetUnread (s : State) : State := (s.forgetInert.setIR 0).setCycleResult .ok

end Sys2Proof.Machine
end

