-- ==== Sys2Proof/Certificates/Slice0/Obligations.lean ====
section
/-! DEFINITION. The statements for the provers. In the statements about one instruction, `s` is the state in which the
decoded instruction is executed: the fetch has set `IR` and added 2 to `pc` (`10_state.md` R24). -/

open Sys2Proof Sys2Proof.Machine

/-! ## Encoding and dispatch -/

/-- Words written out from the spec's patterns decode to the instructions they stand for. -/
def Obligations.SpecWordsDecode : Prop :=
  decode false 0x00E0 = some .cls ∧ decode false 0x00EE = some .ret ∧ decode false 0x1204 = some (.jp 0x204) ∧
  decode false 0x4211 = some (.sneImm 2 0x11) ∧ decode false 0x8127 = some (.subn 1 2) ∧
  decode false 0xD012 = some (.drw 0 1 2) ∧ decode false 0xE5A1 = some (.sknp 5) ∧
  decode false 0xF265 = some (.loadRegs 2) ∧ decode true 0x00C2 = some (.scd 2) ∧
  decode true 0xF175 = some (.saveRpl 1) ∧ decode false 0xF175 = none ∧ decode true 0x8128 = none

/-- Decoding an encoded instruction gives it back with every operand, for every instruction of the configuration; on bytes
as memory holds them too, with the bytes behind it. -/
def Obligations.DecodeOfEncode : Prop :=
  ∀ (schip : Bool) (i : Instr), i.wellFormed schip = true →
    decode schip (encode i) = some i ∧
    ∀ rest : List Byte, decodeBytes schip (encodeBytes i ++ rest) = .instr i rest

/-- Each word has one meaning: what a word decodes to encodes to that word, and exists in that configuration. -/
def Obligations.EncodeOfDecode : Prop :=
  ∀ (schip : Bool) (op : Word) (i : Instr), decode schip op = some i → encode i = op ∧ i.wellFormed schip = true

/-- When the bytes at the program counter decode to `i`, the step is `exec i` in the fetched state. -/
def Obligations.StepRunsDecodedInstruction : Prop :=
  ∀ (s : State) (i : Instr), s.pc.toNat ≤ 0x0FFE →
    decode s.cfg.qSchip (s.readByte s.pc.toNat ++ s.readByte (s.pc.toNat + 1)) = some i →
    step s = exec i { s with IR := s.readByte s.pc.toNat ++ s.readByte (s.pc.toNat + 1), pc := s.pc + 2,
                             cycleResult := .ok }

/-- R74 whole: the fetch fault, the big-endian fetch, `IR` and `pc`, the base table, the SUPER-CHIP table behind
`Q_SCHIP`, UnknownOpcode; and no word matches two rows of the tables. -/
def Obligations.CycleDispatchesByTables : Prop :=
  (∀ s : State, 0x0FFE < s.pc.toNat → step s = .fault (.addressOutOfRange .mem s.pc.toNat)) ∧
  (∀ (s : State) (op : Word) (t : State), s.pc.toNat ≤ 0x0FFE →
    op = s.readByte s.pc.toNat ++ s.readByte (s.pc.toNat + 1) →
    t = { s with IR := op, pc := s.pc + 2, cycleResult := .ok } →
    (∀ r ∈ baseTable, op &&& r.mask = r.value → step s = exec (r.build op) t) ∧
    (∀ r ∈ schipTable, op &&& r.mask = r.value → s.cfg.qSchip = true → step s = exec (r.build op) t) ∧
    ((∀ r ∈ baseTable, op &&& r.mask ≠ r.value) → (s.cfg.qSchip = true → ∀ r ∈ schipTable, op &&& r.mask ≠ r.value) →
      step s = .next { t with cycleResult := .err (.unknownOpcode op) })) ∧
  (∀ (op : Word) (j k : Fin (baseTable ++ schipTable).length),
    op &&& (baseTable ++ schipTable)[j].mask = (baseTable ++ schipTable)[j].value →
    op &&& (baseTable ++ schipTable)[k].mask = (baseTable ++ schipTable)[k].value → j = k)

/-- R77: the words with no instruction are exactly those of its list, and a cycle that fetches one reports
UnknownOpcode with the word and changes nothing but `IR` and the advanced `pc`. -/
def Obligations.IllegalWordsAreReported : Prop :=
  (∀ (schip : Bool) (op : Word), decode schip op = none ↔ IllegalWord schip op) ∧
  (∀ s : State, s.pc.toNat ≤ 0x0FFE → IllegalWord s.cfg.qSchip s.fetched →
    step s = .next { s with IR := s.fetched, pc := s.pc + 2, cycleResult := .err (.unknownOpcode s.fetched) })

/-- With `Q_SCHIP` false, a cycle that fetches any SUPER-CHIP opcode reports UnknownOpcode (R197's gate), and 00FC and
FX30 are no instructions in either setting. -/
def Obligations.SuperChipNeedsQSchip : Prop :=
  (∀ (s : State) (i : Instr), s.pc.toNat ≤ 0x0FFE → s.cfg.qSchip = false → i.isSchip = true → s.fetched = encode i →
    step s = .next { s with IR := encode i, pc := s.pc + 2, cycleResult := .err (.unknownOpcode (encode i)) }) ∧
  (∀ (schip : Bool) (op : Word), op = 0x00FC ∨ op &&& 0xF0FF = 0xF030 → decode schip op = none)

/-! ## Reset -/

/-- The state after power-on (R35's column), for every configuration. The zeros of V, DT, ST, keys and stack slots are
the spec's decision D31, of `I` D40, of `IR` D24, of `hires` D16 (log 10). -/
def Obligations.PowerOnValues : Prop :=
  ∀ (c : Config) (s : State), s = State.powerOn c →
    (∀ r, s.reg r = 0) ∧ s.I = 0 ∧ s.pc = 0x200 ∧ (∀ k, s.slot k = 0) ∧ s.sp = 0 ∧ s.DT = 0 ∧ s.ST = 0 ∧
    (∀ k, s.keyDown k = false) ∧ (∀ c r, c < 64 → r < 32 → s.pixel c r = false) ∧ s.hires = false ∧
    s.RPL = c.rplInit ∧ s.IR = 0 ∧
    (∀ k : Fin 80, s.readByte (c.fontBase.toNat + k.val) = c.fontTable[k]) ∧
    (∀ a, a < c.fontBase.toNat ∨ c.fontBase.toNat + 80 ≤ a → s.readByte a = 0)

/-- The reset state is power-on with the default parameters of R6; `Q_SCHIP` true is the model's choice (log 2). -/
def Obligations.ResetIsStandardPowerOn : Prop :=
  State.reset = State.powerOn State.reset.cfg ∧ State.reset.cfg.fontBase = 0x050 ∧
  State.reset.cfg.rowOverflow = .wrap ∧ (∀ k : Fin 8, State.reset.cfg.rplInit[k] = 0) ∧
  State.reset.cfg.qSchip = true ∧ State.reset.readByte 0x050 = 0xF0 ∧ State.reset.readByte 0x09F = 0x80

/-- R270's last sentence: a cycle right after power-on fetches 0x0000 and reports UnknownOpcode, if the font covers neither
0x200 nor 0x201 (with the default `FONT_BASE` it ends below them). -/
def Obligations.FirstCycleAfterPowerOn : Prop :=
  ∀ c : Config, c.fontBase.toNat + 80 ≤ 0x200 ∨ 0x201 < c.fontBase.toNat →
    step (State.powerOn c) =
      .next { State.powerOn c with pc := 0x202, cycleResult := .err (.unknownOpcode 0x0000) }

/-! ## The invariant -/

/-- The invariant holds at reset. -/
def Obligations.ResetSatisfiesInvariant : Prop := State.reset.Inv

/-- Every step keeps the invariant, from every state that satisfies it. -/
def Obligations.StepKeepsInvariant : Prop :=
  ∀ s t : State, s.Inv → step s = .next t → t.Inv

/-- Every host operation keeps the invariant, `load` of any admitted ROM among them. -/
def Obligations.HostOperationsKeepInvariant : Prop :=
  ∀ (o : HostOp) (s t : State) (r : Reply), s.Inv → perform o s = .next (t, r) → t.Inv

/-- Whatever the host does, in whatever order, a machine stays within the invariant and keeps its configuration. -/
def Obligations.EveryRunKeepsInvariant : Prop :=
  ∀ (ops : List HostOp) (s t : State) (rs : List Reply), s.Inv → runOps ops s = .next (t, rs) →
    t.Inv ∧ t.cfg = s.cfg ∧ rs.length = ops.length

/-- The canonical form is canonical: two memories in it that read the same inside the 4096 bytes are the same data. -/
def Obligations.CanonicalMemoriesAreEqual : Prop :=
  ∀ (c : Config) (m m' : Memory), Memory.wf c m = true → Memory.wf c m' = true →
    (∀ a, a < 4096 → Memory.read c m a = Memory.read c m' a) → m = m'

/-! ## Whole-machine rules -/

/-- The "written by" column of R20: an instruction that completes leaves every element outside its list unchanged; no
instruction writes `IR`, `keys` or the configuration. Of memory it changes at most the bytes it stores, which begin at the
index register's address (R54). -/
def Obligations.OnlyListedElementsChange : Prop :=
  ∀ (i : Instr) (s t : State), exec i s = .next t →
    Frame i.writes s t ∧
    (∀ a, a < s.base ∨ s.base + i.storedBytes ≤ a → t.readByte a = s.readByte a)

/-- R22: the seven flag-writing instructions leave VF 0 or 1 (the flag wins over a result in VF, D10); every other
register changes only if the instruction names it as a destination, VF included for the others. -/
def Obligations.FlagAndDestinationRegisters : Prop :=
  ∀ (i : Instr) (s t : State), exec i s = .next t →
    (i.writesFlag = true → t.reg vf = 0 ∨ t.reg vf = 1) ∧
    (∀ r, ¬ i.names r → ¬ (i.writesFlag = true ∧ r = vf) → t.reg r = s.reg r)

/-- R251, R252: after a cycle that returns `Err(kind)`, the state is the state before it with `IR` set to the opcode and
`pc` advanced by 2, exactly; the kind is one of the five a cycle can raise. -/
def Obligations.ErrorsArePrecise : Prop :=
  ∀ (s t : State) (e : ErrorKind), step s = .next t → t.cycleResult = .err e →
    t = { s with IR := s.fetched, pc := s.pc + 2, cycleResult := .err e } ∧
    e ∈ [.unknownOpcode s.fetched, .stackOverflow, .noSubroutineToExit, .programExited, .invalidRegisterReference]

/-- R249: a step faults exactly when the fetch leaves memory or the decoded instruction's range leaves memory or, under
`DRAW_ROW_OVERFLOW = Fault`, the screen. -/
def Obligations.StepFaultsExactly : Prop :=
  ∀ (s : State) (f : Fault), step s = .fault f ↔
    (0x0FFE < s.pc.toNat ∧ f = .addressOutOfRange .mem s.pc.toNat) ∨
    (s.pc.toNat ≤ 0x0FFE ∧ ∃ i, decode s.cfg.qSchip s.fetched = some i ∧ FaultCause i s f)

/-- No step is refused: every instruction has a meaning. -/
def Obligations.StepIsNeverRefused : Prop :=
  ∀ (s : State) (r : Refusal), step s ≠ .refused r

/-- The four configuration inputs and the open parameters never change: no step and no host operation writes them. -/
def Obligations.ConfigurationIsConstant : Prop :=
  (∀ s t : State, step s = .next t → t.cfg = s.cfg) ∧
  (∀ (o : HostOp) (s t : State) (r : Reply), perform o s = .next (t, r) → t.cfg = s.cfg)

/-- `Q_SHIFT`, `Q_JUMP` and `Q_LOADSTORE` are inert (D11, D12, D13): a machine built with other values of them steps the
same, and every host operation gives the same reply and the same state but for those values. -/
def Obligations.QuirksAreInert : Prop :=
  ∀ (a b c : Bool) (s : State),
    step (s.withQuirks a b c) = mapNext (State.withQuirks a b c) (step s) ∧
    ∀ o : HostOp, perform o (s.withQuirks a b c) = mapNext (fun p => (p.1.withQuirks a b c, p.2)) (perform o s)

/-- No instruction reads `hires`, `ST`, `IR` or the latest cycle's result: states that differ only there step to states
that differ only in `hires` and `ST`. -/
def Obligations.UnreadStateHasNoInfluence : Prop :=
  ∀ s s' : State, s.forgetUnread = s'.forgetUnread →
    mapNext State.forgetInert (step s) = mapNext State.forgetInert (step s')

/-- R64, R276: the bytes an FX55 stores are what the next fetch reads, if `pc` is there. -/
def Obligations.StoredBytesAreFetchedNext : Prop :=
  ∀ (x : Reg) (s t : State), 1 ≤ x.val → s.pc = s.I → exec (.storeRegs x) s = .next t →
    t.fetched = s.reg 0 ++ s.reg 1

/-! ## Display -/

/-- R100. -/
def Obligations.ClsClearsFrameBuffer : Prop :=
  EncodedAs 0xFFFF 0x00E0 (fun _ => .cls) ∧
  ∀ s : State, Completes .cls s fun t => (∀ k : Fin 256, t.FB[k] = 0) ∧ Frame [.FB] s t

/-- R102, R101, R103: a sprite within bounds is drawn pixel by pixel, each pixel XORed with the sprite's bit, and VF is 1
exactly when a lit pixel was turned off; nothing else changes. The coordinates are those before VF is written (D9, log 14);
DXY0 is the same instruction with `n = 0` (D36, log 16). -/
def Obligations.DrwXorsPixels : Prop :=
  EncodedAs 0xF000 0xD000 (fun op => .drw (fieldX op) (fieldY op) (fieldN op)) ∧
  ∀ (x y : Reg) (n : BitVec 4) (s : State), s.drawable y n → Completes (.drw x y n) s fun t =>
    (∀ c r, c < 64 → r < 32 → (t.pixel c r = true ↔ ¬ (s.pixel c r = true ↔ s.spriteLit x y n c r))) ∧
    (t.reg vf = 0 ∨ t.reg vf = 1) ∧
    (t.reg vf = 1 ↔ ∃ c r, c < 64 ∧ r < 32 ∧ s.pixel c r = true ∧ s.spriteLit x y n c r) ∧
    RegFrame [vf] s t ∧ Frame [.FB, .V] s t

/-- R101's two range checks, the memory range first (D7, R251). -/
def Obligations.DrwFaultsOutOfRange : Prop :=
  ∀ (x y : Reg) (n : BitVec 4) (s : State),
    (1 ≤ n.toNat → 0xFFF < s.base + n.toNat - 1 → exec (.drw x y n) s = .fault (.addressOutOfRange .mem 0x1000)) ∧
    ((n.toNat = 0 ∨ s.base + n.toNat - 1 ≤ 0xFFF) → s.cfg.rowOverflow = .fault → s.spriteBelow y n →
      exec (.drw x y n) s = .fault (.addressOutOfRange .frameBuffer 256))

/-- Drawing the same sprite twice at the same place restores the frame buffer; the second draw sets VF exactly when the
sprite has a drawn pixel that was dark before the first (log 30: the spec's sentence leaves that condition out). -/
def Obligations.DrawingTwiceRestores : Prop :=
  ∀ (x y : Reg) (n : BitVec 4) (s t u : State), x ≠ vf → y ≠ vf →
    exec (.drw x y n) s = .next t → exec (.drw x y n) t = .next u →
    u.FB = s.FB ∧
    (u.reg vf = 1 ↔ ∃ c r, c < 64 ∧ r < 32 ∧ s.pixel c r = false ∧ s.spriteLit x y n c r)

/-! ## Control transfer -/

/-- R111. -/
def Obligations.JpSetsPc : Prop :=
  EncodedAs 0xF000 0x1000 (fun op => .jp (fieldNNN op)) ∧
  ∀ (nnn : BitVec 12) (s : State), Completes (.jp nnn) s fun t => t.pc.toNat = nnn.toNat ∧ Frame [.pc] s t

/-- R110: return, or NoSubroutineToExit with nothing changed; the check precedes the pop (D5). -/
def Obligations.RetPopsOrReports : Prop :=
  EncodedAs 0xFFFF 0x00EE (fun _ => .ret) ∧
  ∀ s : State,
    (s.sp ≠ 0 → Completes .ret s fun t => t.pc = s.slot s.sp ∧ t.sp.val + 1 = s.sp.val ∧ Frame [.pc, .sp] s t) ∧
    (s.sp = 0 → Reports .ret s .noSubroutineToExit)

/-- R112: call, or StackOverflow with nothing changed on the sixteenth nested call (D4). -/
def Obligations.CallPushesOrReports : Prop :=
  EncodedAs 0xF000 0x2000 (fun op => .call (fieldNNN op)) ∧
  ∀ (nnn : BitVec 12) (s : State),
    (s.sp ≠ 15 → Completes (.call nnn) s fun t =>
      t.pc.toNat = nnn.toNat ∧ t.sp.val = s.sp.val + 1 ∧ t.slot t.sp = s.pc ∧
      (∀ k, k ≠ t.sp → t.slot k = s.slot k) ∧ Frame [.pc, .sp, .stack] s t) ∧
    (s.sp = 15 → Reports (.call nnn) s .stackOverflow)

/-- A call followed by a return comes back to the word after the call, with the stack as deep as before (R27, R112, R110). -/
def Obligations.RetUndoesCall : Prop :=
  ∀ (nnn : BitVec 12) (s : State), s.sp ≠ 15 →
    ∃ t u, exec (.call nnn) s = .next t ∧ exec .ret t = .next u ∧ u.pc = s.pc ∧ u.sp = s.sp ∧ Frame [.stack] s u

/-- R113, R114. -/
def Obligations.SkipsOnImmediate : Prop :=
  EncodedAs 0xF000 0x3000 (fun op => .seImm (fieldX op) (fieldNN op)) ∧
  EncodedAs 0xF000 0x4000 (fun op => .sneImm (fieldX op) (fieldNN op)) ∧
  ∀ (x : Reg) (nn : Byte) (s : State),
    (Completes (.seImm x nn) s fun t => t.pc = (if s.reg x = nn then s.pc + 2 else s.pc) ∧ Frame [.pc] s t) ∧
    (Completes (.sneImm x nn) s fun t => t.pc = (if s.reg x = nn then s.pc else s.pc + 2) ∧ Frame [.pc] s t)

/-- R115, R116; `5XYn` and `9XYn` with `n ≠ 0` are illegal (D14). -/
def Obligations.SkipsOnRegister : Prop :=
  EncodedAs 0xF00F 0x5000 (fun op => .seReg (fieldX op) (fieldY op)) ∧
  EncodedAs 0xF00F 0x9000 (fun op => .sneReg (fieldX op) (fieldY op)) ∧
  (∀ (schip : Bool) (op : Word), (op &&& 0xF000 = 0x5000 ∨ op &&& 0xF000 = 0x9000) → fieldN op ≠ 0 →
    decode schip op = none) ∧
  ∀ (x y : Reg) (s : State),
    (Completes (.seReg x y) s fun t => t.pc = (if s.reg x = s.reg y then s.pc + 2 else s.pc) ∧ Frame [.pc] s t) ∧
    (Completes (.sneReg x y) s fun t => t.pc = (if s.reg x = s.reg y then s.pc else s.pc + 2) ∧ Frame [.pc] s t)

/-- R117: the sum with V0 is not reduced to 12 bits (D34), whatever `Q_JUMP` is (D12). -/
def Obligations.JpV0AddsV0 : Prop :=
  EncodedAs 0xF000 0xB000 (fun op => .jpV0 (fieldNNN op)) ∧
  ∀ (nnn : BitVec 12) (s : State), Completes (.jpV0 nnn) s fun t =>
    t.pc.toNat = nnn.toNat + (s.reg 0).toNat ∧ Frame [.pc] s t

/-! ## Load, arithmetic, logic, shift, random -/

/-- R130, R131: no flag, even on overflow; VF changes only as the destination. -/
def Obligations.ImmediateLoadAndAdd : Prop :=
  EncodedAs 0xF000 0x6000 (fun op => .ldImm (fieldX op) (fieldNN op)) ∧
  EncodedAs 0xF000 0x7000 (fun op => .addImm (fieldX op) (fieldNN op)) ∧
  ∀ (x : Reg) (nn : Byte) (s : State),
    (Completes (.ldImm x nn) s fun t => t.reg x = nn ∧ RegFrame [x] s t ∧ Frame [.V] s t) ∧
    (Completes (.addImm x nn) s fun t =>
      (t.reg x).toNat = ((s.reg x).toNat + nn.toNat) % 256 ∧ RegFrame [x] s t ∧ Frame [.V] s t)

/-- R132 to R135: copy and bitwise logic write `V[x]` alone; VF is not written. -/
def Obligations.RegisterCopyAndLogic : Prop :=
  EncodedAs 0xF00F 0x8000 (fun op => .ldReg (fieldX op) (fieldY op)) ∧
  EncodedAs 0xF00F 0x8001 (fun op => .orReg (fieldX op) (fieldY op)) ∧
  EncodedAs 0xF00F 0x8002 (fun op => .andReg (fieldX op) (fieldY op)) ∧
  EncodedAs 0xF00F 0x8003 (fun op => .xorReg (fieldX op) (fieldY op)) ∧
  ∀ (x y : Reg) (s : State),
    (Completes (.ldReg x y) s fun t => t.reg x = s.reg y ∧ RegFrame [x] s t ∧ Frame [.V] s t) ∧
    (Completes (.orReg x y) s fun t =>
      (∀ k, k < 8 → (t.reg x).getLsbD k = ((s.reg x).getLsbD k || (s.reg y).getLsbD k)) ∧
      RegFrame [x] s t ∧ Frame [.V] s t) ∧
    (Completes (.andReg x y) s fun t =>
      (∀ k, k < 8 → (t.reg x).getLsbD k = ((s.reg x).getLsbD k && (s.reg y).getLsbD k)) ∧
      RegFrame [x] s t ∧ Frame [.V] s t) ∧
    (Completes (.xorReg x y) s fun t =>
      (∀ k, k < 8 → (t.reg x).getLsbD k = ((s.reg x).getLsbD k ^^ (s.reg y).getLsbD k)) ∧
      RegFrame [x] s t ∧ Frame [.V] s t)

/-- R136: the sum modulo 256 in `V[x]` unless `x` is VF, the carry in VF always: that the flag wins
when `x` is VF is D10 (log 13). -/
def Obligations.AddSetsCarry : Prop :=
  EncodedAs 0xF00F 0x8004 (fun op => .addReg (fieldX op) (fieldY op)) ∧
  ∀ (x y : Reg) (s : State), Completes (.addReg x y) s fun t =>
    (x ≠ vf → (t.reg x).toNat = ((s.reg x).toNat + (s.reg y).toNat) % 256) ∧
    t.reg vf = (if 255 < (s.reg x).toNat + (s.reg y).toNat then 1 else 0) ∧
    RegFrame [x, vf] s t ∧ Frame [.V] s t

/-- R137, R139: the difference modulo 256 in `V[x]` unless `x` is VF, and VF is 1 exactly without a borrow:
that the flag wins when `x` is VF is D10 (log 13). -/
def Obligations.SubtractionsSetNoBorrow : Prop :=
  EncodedAs 0xF00F 0x8005 (fun op => .sub (fieldX op) (fieldY op)) ∧
  EncodedAs 0xF00F 0x8007 (fun op => .subn (fieldX op) (fieldY op)) ∧
  ∀ (x y : Reg) (s : State),
    (Completes (.sub x y) s fun t =>
      (x ≠ vf → ((t.reg x).toNat : Int) = ((s.reg x).toNat - (s.reg y).toNat : Int) % 256) ∧
      t.reg vf = (if (s.reg y).toNat ≤ (s.reg x).toNat then 1 else 0) ∧ RegFrame [x, vf] s t ∧ Frame [.V] s t) ∧
    (Completes (.subn x y) s fun t =>
      (x ≠ vf → ((t.reg x).toNat : Int) = ((s.reg y).toNat - (s.reg x).toNat : Int) % 256) ∧
      t.reg vf = (if (s.reg x).toNat ≤ (s.reg y).toNat then 1 else 0) ∧ RegFrame [x, vf] s t ∧ Frame [.V] s t)

/-- R138, R140: `V[y]` shifted by one bit, the bit shifted out in VF; the source is `V[y]` whatever `Q_SHIFT` is (D11).
That the flag wins when `x` is VF is D10 (log 13). -/
def Obligations.ShiftsMoveVyByOne : Prop :=
  EncodedAs 0xF00F 0x8006 (fun op => .shr (fieldX op) (fieldY op)) ∧
  EncodedAs 0xF00F 0x800E (fun op => .shl (fieldX op) (fieldY op)) ∧
  ∀ (x y : Reg) (s : State),
    (Completes (.shr x y) s fun t =>
      (x ≠ vf → (t.reg x).toNat = (s.reg y).toNat / 2) ∧ (t.reg vf).toNat = (s.reg y).toNat % 2 ∧
      RegFrame [x, vf] s t ∧ Frame [.V] s t) ∧
    (Completes (.shl x y) s fun t =>
      (x ≠ vf → (t.reg x).toNat = (s.reg y).toNat * 2 % 256) ∧ (t.reg vf).toNat = (s.reg y).toNat / 128 ∧
      RegFrame [x, vf] s t ∧ Frame [.V] s t)

/-- R141: `V[x]` is the draw masked by `nn`, one draw is used, and the next CXNN uses another (log 8); it holds for every
value of the draw. -/
def Obligations.RndMasksOneDraw : Prop :=
  EncodedAs 0xF000 0xC000 (fun op => .rnd (fieldX op) (fieldNN op)) ∧
  ∀ (x : Reg) (nn : Byte) (s : State), Completes (.rnd x nn) s fun t =>
    (∀ k, k < 8 → (t.reg x).getLsbD k = ((Config.rand8 s.draws).getLsbD k && nn.getLsbD k)) ∧
    t.draws = s.draws + 1 ∧ RegFrame [x] s t ∧ Frame [.V, .draws] s t

/-! ## Index and memory -/

/-- R150. -/
def Obligations.LdIndexSetsI : Prop :=
  EncodedAs 0xF000 0xA000 (fun op => .ldI (fieldNNN op)) ∧
  ∀ (nnn : BitVec 12) (s : State), Completes (.ldI nnn) s fun t => t.I.toNat = nnn.toNat ∧ Frame [.I] s t

/-- R151 (its flag formula is D35). -/
def Obligations.AddIndexWrapsAt4096 : Prop :=
  EncodedAs 0xF0FF 0xF01E (fun op => .addI (fieldX op)) ∧
  ∀ (x : Reg) (s : State), Completes (.addI x) s fun t =>
    t.I.toNat = (s.I.toNat + (s.reg x).toNat) % 4096 ∧
    t.reg vf = (if 4096 ≤ s.I.toNat + (s.reg x).toNat then 1 else 0) ∧ RegFrame [vf] s t ∧ Frame [.I, .V] s t

/-- R152: the glyph of the low nibble, 5 bytes each (D3), for every value of the register (D20). -/
def Obligations.LdFontPointsAtGlyph : Prop :=
  EncodedAs 0xF0FF 0xF029 (fun op => .ldF (fieldX op)) ∧
  ∀ (x : Reg) (s : State), s.cfg.wf = true → Completes (.ldF x) s fun t =>
    t.I.toNat = s.cfg.fontBase.toNat + 5 * ((s.reg x).toNat % 16) ∧ Frame [.I] s t

/-- R153: three decimal digits, most significant first, or the range fault before any write. -/
def Obligations.BcdStoresDigits : Prop :=
  EncodedAs 0xF0FF 0xF033 (fun op => .ldB (fieldX op)) ∧
  ∀ (x : Reg) (s : State),
    (s.I.toNat + 2 ≤ 0xFFF → Completes (.ldB x) s fun t =>
      (t.readByte s.I.toNat).toNat = (s.reg x).toNat / 100 ∧
      (t.readByte (s.I.toNat + 1)).toNat = (s.reg x).toNat / 10 % 10 ∧
      (t.readByte (s.I.toNat + 2)).toNat = (s.reg x).toNat % 10 ∧
      (∀ a, a < s.I.toNat ∨ s.I.toNat + 3 ≤ a → t.readByte a = s.readByte a) ∧ Frame [.mem] s t) ∧
    (0xFFF < s.I.toNat + 2 → exec (.ldB x) s = .fault (.addressOutOfRange .mem 0x1000))

/-- R154: `V[0..x]` at `I`, ascending, `x` included, nothing beyond; or the range fault before any write. `I` is unchanged
(D13). -/
def Obligations.BlockStoreCopiesRegisters : Prop :=
  EncodedAs 0xF0FF 0xF055 (fun op => .storeRegs (fieldX op)) ∧
  ∀ (x : Reg) (s : State),
    (s.I.toNat + x.val ≤ 0xFFF → Completes (.storeRegs x) s fun t =>
      (∀ r : Reg, r ≤ x → t.readByte (s.I.toNat + r.val) = s.reg r) ∧
      (∀ a, a < s.I.toNat ∨ s.I.toNat + x.val + 1 ≤ a → t.readByte a = s.readByte a) ∧ Frame [.mem] s t) ∧
    (0xFFF < s.I.toNat + x.val → exec (.storeRegs x) s = .fault (.addressOutOfRange .mem 0x1000))

/-- R155: bytes at `I` into `V[0..x]`, or the range fault before any register write. `I` is unchanged (D13). -/
def Obligations.BlockLoadFillsRegisters : Prop :=
  EncodedAs 0xF0FF 0xF065 (fun op => .loadRegs (fieldX op)) ∧
  ∀ (x : Reg) (s : State),
    (s.I.toNat + x.val ≤ 0xFFF → Completes (.loadRegs x) s fun t =>
      (∀ r : Reg, r ≤ x → t.reg r = s.readByte (s.I.toNat + r.val)) ∧
      (∀ r : Reg, x < r → t.reg r = s.reg r) ∧ Frame [.V] s t) ∧
    (0xFFF < s.I.toNat + x.val → exec (.loadRegs x) s = .fault (.addressOutOfRange .mem 0x1000))

/-! ## Keypad and timers -/

/-- R170, R171: the key is the register's low nibble. -/
def Obligations.KeySkips : Prop :=
  EncodedAs 0xF0FF 0xE09E (fun op => .skp (fieldX op)) ∧
  EncodedAs 0xF0FF 0xE0A1 (fun op => .sknp (fieldX op)) ∧
  ∀ (x : Reg) (k : Fin 16) (s : State), k.val = (s.reg x).toNat % 16 →
    (Completes (.skp x) s fun t => t.pc = (if s.keyDown k = true then s.pc + 2 else s.pc) ∧ Frame [.pc] s t) ∧
    (Completes (.sknp x) s fun t => t.pc = (if s.keyDown k = true then s.pc else s.pc + 2) ∧ Frame [.pc] s t)

/-- R172, R174, R175 (which pattern reads and which writes is D29, general knowledge; log 26). -/
def Obligations.TimerMoves : Prop :=
  EncodedAs 0xF0FF 0xF007 (fun op => .ldVxDt (fieldX op)) ∧
  EncodedAs 0xF0FF 0xF015 (fun op => .ldDtVx (fieldX op)) ∧
  EncodedAs 0xF0FF 0xF018 (fun op => .ldStVx (fieldX op)) ∧
  ∀ (x : Reg) (s : State),
    (Completes (.ldVxDt x) s fun t => t.reg x = s.DT ∧ RegFrame [x] s t ∧ Frame [.V] s t) ∧
    (Completes (.ldDtVx x) s fun t => t.DT = s.reg x ∧ Frame [.DT] s t) ∧
    (Completes (.ldStVx x) s fun t => t.ST = s.reg x ∧ Frame [.ST] s t)

/-- R173: the lowest pressed key, or `pc` back by 2 with nothing else changed. -/
def Obligations.KeyWait : Prop :=
  EncodedAs 0xF0FF 0xF00A (fun op => .ldVxK (fieldX op)) ∧
  ∀ (x : Reg) (s : State),
    (∀ k : Fin 16, s.keyDown k = true → (∀ j, j < k → s.keyDown j = false) →
      Completes (.ldVxK x) s fun t => (t.reg x).toNat = k.val ∧ RegFrame [x] s t ∧ Frame [.V] s t) ∧
    ((∀ k, s.keyDown k = false) → Completes (.ldVxK x) s fun t => t.pc + 2 = s.pc ∧ Frame [.pc] s t)

/-- R260, R173(d): with no key down, a cycle at an FX0A returns `Ok` with `pc` where it was, and only `IR` and the
cycle's result differ. -/
def Obligations.KeyWaitCycleStaysPut : Prop :=
  ∀ (x : Reg) (s : State), s.pc.toNat ≤ 0x0FFE → s.fetched = encode (.ldVxK x) → (∀ k, s.keyDown k = false) →
    step s = .next { s with IR := encode (.ldVxK x), cycleResult := .ok }

/-! ## SUPER-CHIP -/

/-- R190 in pixels (`n = 0` changes nothing, the bottom rows are lost: D18). -/
def Obligations.ScrollDownShiftsRows : Prop :=
  EncodedAsSchip 0xFFF0 0x00C0 (fun op => .scd (fieldN op)) ∧
  ∀ (n : BitVec 4) (s : State), Completes (.scd n) s fun t =>
    (∀ c r, c < 64 → r < 32 → t.pixel c r = if r < n.toNat then false else s.pixel c (r - n.toNat)) ∧
    Frame [.FB] s t

/-- R191 in pixels (nothing re-enters a row: D17). -/
def Obligations.ScrollRightShiftsPixels : Prop :=
  EncodedAsSchip 0xFFFF 0x00FB (fun _ => .scr) ∧
  ∀ s : State, Completes .scr s fun t =>
    (∀ c r, c < 64 → r < 32 → t.pixel c r = if c < 4 then false else s.pixel (c - 4) r) ∧ Frame [.FB] s t

/-- R192 (a report, not a halt: D33), R193, R194 (set, not inverted: D16). -/
def Obligations.ExitLowHigh : Prop :=
  EncodedAsSchip 0xFFFF 0x00FD (fun _ => .exit) ∧
  EncodedAsSchip 0xFFFF 0x00FE (fun _ => .low) ∧
  EncodedAsSchip 0xFFFF 0x00FF (fun _ => .high) ∧
  ∀ s : State,
    Reports .exit s .programExited ∧
    (Completes .low s fun t => t.hires = false ∧ Frame [.hires] s t) ∧
    (Completes .high s fun t => t.hires = true ∧ Frame [.hires] s t)

/-- R195, R196: `V[0..x]` to and from the RPL cells, or InvalidRegisterReference with nothing copied when `x > 7` (D19). -/
def Obligations.RplSaveAndRestore : Prop :=
  EncodedAsSchip 0xF0FF 0xF075 (fun op => .saveRpl (fieldX op)) ∧
  EncodedAsSchip 0xF0FF 0xF085 (fun op => .restoreRpl (fieldX op)) ∧
  ∀ (x : Reg) (s : State),
    (x.val ≤ 7 →
      (Completes (.saveRpl x) s fun t =>
        (∀ k : Fin 8, t.RPL[k] = if k.val ≤ x.val then s.reg (k.castLE (by decide)) else s.RPL[k]) ∧
        Frame [.RPL] s t) ∧
      (Completes (.restoreRpl x) s fun t =>
        (∀ k : Fin 8, k.val ≤ x.val → t.reg (k.castLE (by decide)) = s.RPL[k]) ∧
        (∀ r : Reg, x < r → t.reg r = s.reg r) ∧ Frame [.V] s t)) ∧
    (7 < x.val → Reports (.saveRpl x) s .invalidRegisterReference ∧ Reports (.restoreRpl x) s .invalidRegisterReference)

/-! ## Host operations -/

/-- R211: `load` of an admitted ROM replaces everything but RPL: power-on values, the ROM at 0x200, and no byte of the old
memory; a longer ROM is refused (D25). The model's count of draws goes on (log 8). -/
def Obligations.LoadRebuildsTheMachine : Prop :=
  ∀ (rom : List Byte) (s : State),
    (rom.length ≤ 3584 → ∃ t, load rom s = .next t ∧
      (∀ k (h : k < rom.length), t.readByte (0x200 + k) = rom[k]) ∧
      (∀ a, a < 0x200 ∨ 0x200 + rom.length ≤ a → t.readByte a = (State.powerOn s.cfg).readByte a) ∧
      t.RPL = s.RPL ∧ t.draws = s.draws ∧ Frame [.mem, .RPL, .draws] (State.powerOn s.cfg) t) ∧
    (3584 < rom.length → load rom s = .refused (.romTooLong rom.length))

/-- R213. -/
def Obligations.TickDelayTimer : Prop :=
  ∀ s : State, ∃ t, perform .tickDelayTimer s = .next (t, .nothing) ∧
    (0 < s.DT.toNat → t.DT.toNat + 1 = s.DT.toNat) ∧ (s.DT.toNat = 0 → t.DT = s.DT) ∧ Frame [.DT] s t

/-- R214: a beep is reported exactly when `ST` was non-zero on entry (D22). -/
def Obligations.TickSoundTimer : Prop :=
  ∀ s : State, ∃ t b, perform .tickSoundTimer s = .next (t, .beep b) ∧ (b = true ↔ 0 < s.ST.toNat) ∧
    (0 < s.ST.toNat → t.ST.toNat + 1 = s.ST.toNat) ∧ (s.ST.toNat = 0 → t.ST = s.ST) ∧ Frame [.ST] s t

/-- R215, R216: the named key goes down or up and no other, or InvalidKeycode with no state change (D23, D32). -/
def Obligations.PressAndRelease : Prop :=
  ∀ (key : Byte) (s : State),
    (∀ k : Fin 16, key.toNat = k.val →
      (∃ t, perform (.press key) s = .next (t, .ok) ∧ t.keyDown k = true ∧
        (∀ j, j ≠ k → t.keyDown j = s.keyDown j) ∧ Frame [.keys] s t) ∧
      (∃ t, perform (.release key) s = .next (t, .ok) ∧ t.keyDown k = false ∧
        (∀ j, j ≠ k → t.keyDown j = s.keyDown j) ∧ Frame [.keys] s t)) ∧
    (15 < key.toNat → perform (.press key) s = .next (s, .err .invalidKeycode) ∧
      perform (.release key) s = .next (s, .err .invalidKeycode))

/-- R217 to R220: the four observations return what they name and change nothing. -/
def Obligations.ObservationsOnlyRead : Prop :=
  ∀ s : State,
    (∃ l, perform .framebufferSnapshot s = .next (s, .bytes l) ∧ l.length = 256 ∧
      ∀ k : Fin 256, l[k.val]? = some s.FB[k]) ∧
    perform .currentOpcode s = .next (s, .word s.IR) ∧
    perform .programCounter s = .next (s, .word s.pc) ∧
    (∃ l, perform .disassembledProgram s = .next (s, .words l) ∧ l.length = 1792 ∧
      ∀ k, k < 1792 → l[k]? = some (s.readByte (0x200 + 2 * k) ++ s.readByte (0x201 + 2 * k)))
end

