-- ==== Sys2Proof/Laws/Display.lean ====
section
/-! SUPPORT. What drawing does, pixel by pixel: one sprite row, then a whole sprite. -/

namespace Sys2Proof.Machine

/-- The pixel at column `c` and row `r` of a frame buffer (R30). -/
def fbPixel (fb : FrameBuffer) (c r : Nat) : Bool := (fbGet fb (r * 8 + c / 8)).getLsbD (7 - c % 8)

/-- The pixel a sprite row of bits `src`, started at column `x0` of row `r`, turns (R101): one of its 8 columns, where its
bit is 1. -/
def rowPixel (x0 r : Nat) (src : Byte) (c r' : Nat) : Bool :=
  decide (r' = r) && decide (x0 ≤ c) && decide (c ≤ x0 + 7) && src.getLsbD (7 - (c - x0))

/-- Two bytes meet when some bit, counted from the left, is 1 in both. -/
theorem byte_hit_iff {a b : Byte} : ((a &&& b) != 0) = true ↔ ∃ k, k < 8 ∧ a.getLsbD (7 - k) = true ∧ b.getLsbD (7 - k) = true := by
  rw [bne_iff_ne, ne_eq]
  constructor
  · intro h
    by_contra hn
    apply h
    apply BitVec.eq_of_getLsbD_eq
    intro i hi
    have hc : ¬ (a.getLsbD i = true ∧ b.getLsbD i = true) := fun hc =>
      hn ⟨7 - i, by omega, by rw [show 7 - (7 - i) = i by omega]; exact hc⟩
    cases ha : a.getLsbD i <;> cases hb : b.getLsbD i <;> simp_all
  · rintro ⟨k, -, ha, hb⟩ h
    have : (a &&& b).getLsbD (7 - k) = true := by simp [ha, hb]
    simp [h] at this

/-- One sprite row turns exactly its own pixels; what passes column 63 is lost (R101, R102). -/
theorem drawRow_pixel {x0 r : Nat} (hx : x0 < 64) (hr : r < 32) (acc : FrameBuffer × Bool) (src : Byte) {c r' : Nat}
    (hc : c < 64) :
    fbPixel (drawRow x0 acc r src).1 c r' = (fbPixel acc.1 c r' ^^ rowPixel x0 r src c r') := by
  have hhi : (src >>> (x0 % 8)).getLsbD (7 - c % 8) = src.getLsbD (x0 % 8 + (7 - c % 8)) := by simp
  have hlo : (src <<< (8 - x0 % 8)).getLsbD (7 - c % 8) =
      (decide (c % 8 < x0 % 8) && src.getLsbD (x0 % 8 - 1 - c % 8)) := by
    rw [BitVec.getLsbD_shiftLeft]
    have e : 7 - c % 8 - (8 - x0 % 8) = x0 % 8 - 1 - c % 8 := by omega
    rw [e]
    by_cases h : c % 8 < x0 % 8
    · simp [h, show 7 - c % 8 < 8 by omega, show ¬ 7 - c % 8 < 8 - x0 % 8 by omega]
    · simp [h, show 7 - c % 8 < 8 - x0 % 8 by omega]
  have hbig : ∀ k, 8 ≤ k → src.getLsbD k = false := fun k hk => BitVec.getLsbD_of_ge _ _ hk
  simp only [fbPixel, drawRow, rowPixel]
  split
  · rename_i hs
    rw [fbGet_xorByte _ _ _ _ (by omega), fbGet_xorByte _ _ _ _ (by omega), fbGet_xorByte _ _ _ _ (by omega)]
    by_cases h1 : r' = r
    · subst h1
      by_cases h2 : c / 8 = x0 / 8
      · rw [if_neg (by omega), if_pos (by omega), BitVec.getLsbD_xor, hhi, h2]
        by_cases h3 : x0 ≤ c
        · rw [show x0 % 8 + (7 - c % 8) = 7 - (c - x0) by omega]; simp [h3, show c ≤ x0 + 7 by omega]
        · rw [hbig _ (by omega)]; simp [h3]
      · by_cases h4 : c / 8 = x0 / 8 + 1
        · rw [if_pos (by omega), if_neg (by omega), BitVec.getLsbD_xor, hlo, show r' * 8 + c / 8 = r' * 8 + x0 / 8 + 1 by omega]
          by_cases h3 : c % 8 < x0 % 8
          · rw [show x0 % 8 - 1 - c % 8 = 7 - (c - x0) by omega]; simp [h3, show c ≤ x0 + 7 by omega, show x0 ≤ c by omega]
          · simp [h3, show ¬ c ≤ x0 + 7 by omega]
        · rw [if_neg (by omega), if_neg (by omega)]
          have : ¬ (x0 ≤ c ∧ c ≤ x0 + 7) := by omega
          by_cases h5 : x0 ≤ c
          · simp [show ¬ c ≤ x0 + 7 by omega]
          · simp [h5]
    · rw [if_neg (by omega), if_neg (by omega)]; simp [h1]
  · rename_i hs
    rw [fbGet_xorByte _ _ _ _ (by omega)]
    by_cases h1 : r' = r
    · subst h1
      by_cases h2 : c / 8 = x0 / 8
      · rw [if_pos (by omega), BitVec.getLsbD_xor, hhi, h2]
        by_cases h3 : x0 ≤ c
        · rw [show x0 % 8 + (7 - c % 8) = 7 - (c - x0) by omega]; simp [h3, show c ≤ x0 + 7 by omega]
        · rw [hbig _ (by omega)]; simp [h3]
      · rw [if_neg (by omega)]
        by_cases h5 : x0 ≤ c
        · simp [show ¬ c ≤ x0 + 7 by omega]
        · simp [h5]
    · rw [if_neg (by omega)]; simp [h1]

/-- One sprite row hits when it turns a lit pixel off, or a row before it did (R101, D9). -/
theorem drawRow_hit {x0 r : Nat} (hx : x0 < 64) (hr : r < 32) (acc : FrameBuffer × Bool) (src : Byte) :
    (drawRow x0 acc r src).2 = true ↔
      acc.2 = true ∨ ∃ c, c < 64 ∧ fbPixel acc.1 c r = true ∧ rowPixel x0 r src c r = true := by
  have hhi : ((fbGet acc.1 (r * 8 + x0 / 8) &&& src >>> (x0 % 8)) != 0) = true ↔
      ∃ c, c < 64 ∧ c / 8 = x0 / 8 ∧ fbPixel acc.1 c r = true ∧ rowPixel x0 r src c r = true := by
    rw [byte_hit_iff]
    constructor
    · rintro ⟨k, hk, ha, hb⟩
      rw [BitVec.getLsbD_ushiftRight] at hb
      have h8 : x0 % 8 + (7 - k) < 8 := by
        by_contra h; rw [BitVec.getLsbD_of_ge _ _ (by omega)] at hb; cases hb
      refine ⟨x0 / 8 * 8 + k, by omega, by omega, ?_, ?_⟩
      · rw [fbPixel, show (x0 / 8 * 8 + k) / 8 = x0 / 8 by omega, show (x0 / 8 * 8 + k) % 8 = k by omega]; exact ha
      · rw [show x0 % 8 + (7 - k) = 7 - (x0 / 8 * 8 + k - x0) by omega] at hb
        simp [rowPixel, hb]; omega
    · rintro ⟨c, hc, he, ha, hb⟩
      simp only [rowPixel, Bool.and_eq_true, decide_eq_true_eq] at hb
      obtain ⟨⟨⟨-, h1⟩, h2⟩, h3⟩ := hb
      refine ⟨c % 8, by omega, ?_, ?_⟩
      · rw [fbPixel, he] at ha; exact ha
      · rw [BitVec.getLsbD_ushiftRight, show x0 % 8 + (7 - c % 8) = 7 - (c - x0) by omega]; exact h3
  have hlo : ∀ fb : FrameBuffer, x0 / 8 ≠ 7 →
      (((fbGet fb (r * 8 + x0 / 8 + 1) &&& src <<< (8 - x0 % 8)) != 0) = true ↔
      ∃ c, c < 64 ∧ c / 8 = x0 / 8 + 1 ∧ fbPixel fb c r = true ∧ rowPixel x0 r src c r = true) := by
    intro fb h7
    rw [byte_hit_iff]
    constructor
    · rintro ⟨k, hk, ha, hb⟩
      rw [BitVec.getLsbD_shiftLeft] at hb
      simp only [Bool.and_eq_true, decide_eq_true_eq, Bool.not_eq_true', decide_eq_false_iff_not] at hb
      obtain ⟨⟨-, h1⟩, h2⟩ := hb
      refine ⟨x0 / 8 * 8 + 8 + k, by omega, by omega, ?_, ?_⟩
      · rw [fbPixel, show (x0 / 8 * 8 + 8 + k) / 8 = x0 / 8 + 1 by omega, show (x0 / 8 * 8 + 8 + k) % 8 = k by omega]; exact ha
      · rw [show 7 - k - (8 - x0 % 8) = 7 - (x0 / 8 * 8 + 8 + k - x0) by omega] at h2
        simp [rowPixel, h2]; omega
    · rintro ⟨c, hc, he, ha, hb⟩
      simp only [rowPixel, Bool.and_eq_true, decide_eq_true_eq] at hb
      obtain ⟨⟨⟨-, h1⟩, h2⟩, h3⟩ := hb
      refine ⟨c % 8, by omega, ?_, ?_⟩
      · rw [fbPixel, he] at ha; exact ha
      · rw [BitVec.getLsbD_shiftLeft, show 7 - c % 8 - (8 - x0 % 8) = 7 - (c - x0) by omega, h3]
        simp; omega
  have hcol : ∀ c, rowPixel x0 r src c r = true → x0 ≤ c ∧ c ≤ x0 + 7 := by
    intro c h; simp only [rowPixel, Bool.and_eq_true, decide_eq_true_eq] at h; exact ⟨h.1.1.2, h.1.2⟩
  simp only [drawRow]
  split
  · rename_i hs
    have hfb : fbGet (xorByte acc (r * 8 + x0 / 8) (src >>> (x0 % 8))).1 (r * 8 + x0 / 8 + 1) =
        fbGet acc.1 (r * 8 + x0 / 8 + 1) := by
      rw [fbGet_xorByte _ _ _ _ (by omega), if_neg (by omega)]
    rw [xorByte_hit, xorByte_hit, hfb, Bool.or_eq_true, Bool.or_eq_true, hhi, hlo _ hs.2, or_assoc]
    refine or_congr Iff.rfl ⟨?_, ?_⟩
    · rintro (⟨c, hc, -, h⟩ | ⟨c, hc, -, h⟩) <;> exact ⟨c, hc, h⟩
    · rintro ⟨c, hc, h⟩
      have := hcol c h.2
      by_cases he : c / 8 = x0 / 8
      · exact .inl ⟨c, hc, he, h⟩
      · exact .inr ⟨c, hc, by omega, h⟩
  · rename_i hs
    rw [xorByte_hit, Bool.or_eq_true, hhi]
    refine or_congr Iff.rfl ⟨?_, ?_⟩
    · rintro ⟨c, hc, -, h⟩; exact ⟨c, hc, h⟩
    · rintro ⟨c, hc, h⟩
      have := hcol c h.2
      exact ⟨c, hc, by omega, h⟩

/-- Two rows of one sprite are never drawn on the same row of the screen (R103). -/
theorem destRow_inj {o : RowOverflow} {y0 i j r : Nat} (hy : y0 < 32) (hi : i < 16) (hj : j < 16)
    (h1 : destRow o y0 i = some r) (h2 : destRow o y0 j = some r) : i = j := by
  unfold destRow at h1 h2
  split_ifs at h1 h2 <;> cases o <;> simp at h1 h2 <;> omega

/-- The sprite of `n` rows at `x0`, `y0` lights column `c` of row `r` (R101, R103). -/
def spritePixel (s : State) (x0 y0 n c r : Nat) : Prop :=
  ∃ row, row < n ∧ destRow s.cfg.rowOverflow y0 row = some r ∧ rowPixel x0 r (s.readByte (s.base + row)) c r = true

/-- A sprite's last row is drawn after the others. -/
theorem drawSprite_succ (s : State) (x0 y0 n : Nat) :
    drawSprite s x0 y0 (n + 1) =
      match destRow s.cfg.rowOverflow y0 n with
      | some r => drawRow x0 (drawSprite s x0 y0 n) r (s.readByte (s.base + n))
      | none => drawSprite s x0 y0 n := by
  rw [drawSprite, List.range_succ, List.foldl_append]
  rfl

/-- A sprite turns exactly the pixels it lights (R102). -/
theorem drawSprite_pixel (s : State) {x0 y0 n : Nat} (hx : x0 < 64) (hy : y0 < 32) (hn : n ≤ 16) {c r : Nat}
    (hc : c < 64) :
    fbPixel (drawSprite s x0 y0 n).1 c r = true ↔ ¬ (fbPixel s.FB c r = true ↔ spritePixel s x0 y0 n c r) := by
  induction n with
  | zero => simp [drawSprite, spritePixel]
  | succ n ih =>
    have ih := ih (by omega)
    rw [drawSprite_succ]
    have hsplit : spritePixel s x0 y0 (n + 1) c r ↔ spritePixel s x0 y0 n c r ∨
        (destRow s.cfg.rowOverflow y0 n = some r ∧ rowPixel x0 r (s.readByte (s.base + n)) c r = true) := by
      constructor
      · rintro ⟨row, h1, h2⟩
        rcases Nat.lt_succ_iff_lt_or_eq.mp h1 with h | rfl
        · exact .inl ⟨row, h, h2⟩
        · exact .inr h2
      · rintro (⟨row, h1, h2⟩ | h2)
        · exact ⟨row, by omega, h2⟩
        · exact ⟨n, by omega, h2⟩
    have hone : destRow s.cfg.rowOverflow y0 n = some r → ¬ spritePixel s x0 y0 n c r := by
      rintro h ⟨row, h1, h2, -⟩
      have := destRow_inj hy (by omega) (by omega) h h2
      omega
    rw [hsplit]
    cases hd : destRow s.cfg.rowOverflow y0 n with
    | none => simpa using ih
    | some q =>
      have hq := destRow_lt hy (by omega) hd
      dsimp only
      rw [drawRow_pixel hx hq _ _ hc, show ∀ a b : Bool, ((a ^^ b) = true) = (a ≠ b) by decide]
      by_cases he : q = r
      · subst he
        have := hone hd
        simp only [this, false_or, true_and]
        rw [iff_false_right this] at ih
        rw [not_not] at ih
        have ih : fbPixel (drawSprite s x0 y0 n).1 c q = fbPixel s.FB c q := by
          rw [Bool.eq_iff_iff]; exact ih
        rw [ih, ne_eq, Bool.eq_iff_iff]
      · have : rowPixel x0 q (s.readByte (s.base + n)) c r = false := by simp [rowPixel, Ne.symm he]
        simp only [this, Option.some.injEq, he, false_and, or_false, ne_eq, Bool.not_eq_false]
        exact ih

/-- The collision flag: the sprite lights a pixel that was lit before (R102). -/
theorem drawSprite_hit (s : State) {x0 y0 n : Nat} (hx : x0 < 64) (hy : y0 < 32) (hn : n ≤ 16) :
    (drawSprite s x0 y0 n).2 = true ↔
      ∃ c r, c < 64 ∧ r < 32 ∧ fbPixel s.FB c r = true ∧ spritePixel s x0 y0 n c r := by
  induction n with
  | zero => simp [drawSprite, spritePixel]
  | succ n ih =>
    have ih := ih (by omega)
    rw [drawSprite_succ]
    cases hd : destRow s.cfg.rowOverflow y0 n with
    | none =>
      dsimp only
      rw [ih]
      refine exists_congr fun c => exists_congr fun r => and_congr_right fun _ => and_congr_right fun _ =>
        and_congr_right fun _ => ⟨fun ⟨row, h1, h2⟩ => ⟨row, by omega, h2⟩, fun ⟨row, h1, h2⟩ => ?_⟩
      rcases Nat.lt_succ_iff_lt_or_eq.mp h1 with h | rfl
      · exact ⟨row, h, h2⟩
      · rw [hd] at h2; cases h2.1
    | some q =>
      have hq := destRow_lt hy (by omega) hd
      dsimp only
      rw [drawRow_hit hx hq, ih]
      have hone : ∀ c, ¬ spritePixel s x0 y0 n c q := by
        rintro c ⟨row, h1, h2, -⟩
        have := destRow_inj hy (by omega) (by omega) hd h2
        omega
      have hsame : ∀ c, c < 64 → (fbPixel (drawSprite s x0 y0 n).1 c q = true ↔ fbPixel s.FB c q = true) := by
        intro c hc
        rw [drawSprite_pixel s hx hy (by omega) hc, iff_false_right (hone c), not_not]
      constructor
      · rintro (⟨c, r, hc, hr, h1, row, h2, h3⟩ | ⟨c, hc, h1, h2⟩)
        · exact ⟨c, r, hc, hr, h1, row, by omega, h3⟩
        · exact ⟨c, q, hc, hq, (hsame c hc).mp h1, n, by omega, hd, h2⟩
      · rintro ⟨c, r, hc, hr, h1, row, h2, h3, h4⟩
        rcases Nat.lt_succ_iff_lt_or_eq.mp h2 with h | rfl
        · exact .inl ⟨c, r, hc, hr, h1, row, h, h3, h4⟩
        · rw [hd] at h3
          cases h3
          exact .inr ⟨c, hc, (hsame c hc).mpr h1, h4⟩

end Sys2Proof.Machine
end

