-- ==== Sys2Proof/Laws/Safety.lean ====
section
/-! SUPPORT. The small lemmas of the statements' own terms: `mapNext`, and the machine built with other inert inputs. -/

namespace Sys2Proof.Machine

@[simp] theorem mapNext_next {α : Type} (f : α → α) (a : α) : mapNext f (.next a) = .next (f a) := rfl

@[simp] theorem mapNext_fault {α : Type} (f : α → α) (e : Fault) : mapNext f (.fault e) = .fault e := rfl

@[simp] theorem mapNext_refused {α : Type} (f : α → α) (r : Refusal) : mapNext f (.refused r) = .refused r := rfl

variable (s : State) (a b c : Bool)

@[simp] theorem State.withQuirks_pc : (s.withQuirks a b c).pc = s.pc := rfl

@[simp] theorem State.withQuirks_qSchip : (s.withQuirks a b c).cfg.qSchip = s.cfg.qSchip := rfl

@[simp] theorem State.withQuirks_fetched : (s.withQuirks a b c).fetched = s.fetched := rfl

@[simp] theorem State.withQuirks_reg (r : Reg) : (s.withQuirks a b c).reg r = s.reg r := rfl

@[simp] theorem State.withQuirks_readByte (p : Nat) : (s.withQuirks a b c).readByte p = s.readByte p := rfl

/-- What memory holds after power-on does not depend on the inert inputs, so neither does a write. -/
theorem Memory.writeAll_withQuirks (m : Memory) (p : Nat) (vs : List Byte) :
    Memory.writeAll (s.withQuirks a b c).cfg m p vs = Memory.writeAll s.cfg m p vs := by
  induction vs generalizing m p with
  | nil => rfl
  | cons v rest ih =>
    rw [Memory.writeAll, Memory.writeAll, ih]
    rfl

/-- Loading a ROM keeps the inert inputs and depends on them in nothing else (R211). -/
theorem State.withQuirks_loaded (rom : List Byte) :
    (s.withQuirks a b c).loaded rom = (s.loaded rom).withQuirks a b c := by
  rw [State.loaded, Memory.writeAll_withQuirks]
  rfl

end Sys2Proof.Machine
end

