-- ==== Sys2Proof/Laws/Step.lean ====
section
/-! SUPPORT. What one `cycle` can do, said once: the fetch fault, the decoded instruction, or UnknownOpcode (R74). -/

namespace Sys2Proof.Machine

/-- The fetch of an opcode whose two bytes lie in memory. -/
theorem fetch_of_fetchable {s : State} (h : s.pc.toNat ≤ 0x0FFE) : fetch s = .next (s.afterFetch s.fetched) := by
  simp [fetch, State.fetchable, h]

/-- The step runs the instruction the fetched opcode decodes to, in the fetched state. -/
theorem step_of_decode {s : State} {i : Instr} (h : s.pc.toNat ≤ 0x0FFE)
    (hd : decode s.cfg.qSchip s.fetched = some i) : step s = exec i (s.afterFetch s.fetched) := by
  simp only [step, fetch_of_fetchable h, State.afterFetch_cfg, State.afterFetch_IR, hd]

/-- No row matches the fetched opcode: the step reports UnknownOpcode in the fetched state (R77). -/
theorem step_of_unknown {s : State} (h : s.pc.toNat ≤ 0x0FFE) (hd : decode s.cfg.qSchip s.fetched = none) :
    step s = .next ((s.afterFetch s.fetched).setCycleResult (.err (.unknownOpcode s.fetched))) := by
  simp only [step, fetch_of_fetchable h, State.afterFetch_cfg, State.afterFetch_IR, hd, unknownOpcode, raiseErr]

/-- A byte of the opcode lies outside memory: the fault of R74, step 1. -/
theorem step_of_not_fetchable {s : State} (h : 0x0FFE < s.pc.toNat) :
    step s = .fault (.addressOutOfRange .mem s.pc.toNat) := by
  have h' : ¬ s.pc.toNat ≤ 0x0FFE := by omega
  simp [step, fetch, State.fetchable, h']

/-- A step that answers next fetched, and then ran the decoded instruction or reported UnknownOpcode. -/
theorem step_eq_next {s t : State} (h : step s = .next t) :
    s.pc.toNat ≤ 0x0FFE ∧
      ((∃ i, decode s.cfg.qSchip s.fetched = some i ∧ exec i (s.afterFetch s.fetched) = .next t) ∨
       (decode s.cfg.qSchip s.fetched = none ∧
        t = (s.afterFetch s.fetched).setCycleResult (.err (.unknownOpcode s.fetched)))) := by
  rcases Nat.lt_or_ge 0x0FFE s.pc.toNat with hp | hp
  · rw [step_of_not_fetchable hp] at h
    cases h
  · refine ⟨hp, ?_⟩
    cases hd : decode s.cfg.qSchip s.fetched with
    | some i =>
      rw [step_of_decode hp hd] at h
      exact .inl ⟨i, rfl, h⟩
    | none =>
      rw [step_of_unknown hp hd] at h
      cases h
      exact .inr ⟨rfl, rfl⟩

end Sys2Proof.Machine
end

