-- ==== Sys2Proof/Tests/Slice0.lean ====
section
/-! SUPPORT. The model's own tests. Expected results come from `95_test_vectors.md` (the vector's number stands in the
docstring) or are worked out by hand from the rule cited; one step each, a few bytes of the result. The last part shows,
for each statement with hypotheses, concrete states and operands that meet them. -/

namespace Sys2Proof.Tests

open Sys2Proof Sys2Proof.Machine

-- One theorem after the other: all at once they ask for more threads than memory holds stacks for.
set_option Elab.async false

/-! ## Helpers -/

/-- The state reset leaves, with another configuration. -/
def withCfg (f : Config → Config) : State := { State.reset with cfg := f State.reset.cfg }

/-- One cycle with the word `w` at `pc`, looked at through `look`; nothing if it is no next state. -/
def ran {α : Type} (s : State) (w : Nat) (look : State → α) : Option α :=
  match step (s.withFetchWord 16 w) with
  | .next t => some (look t)
  | .fault _ => none
  | .refused _ => none

/-- The fault the cycle ends in, if it does. -/
def faultOf (s : State) (w : Nat) : Option Fault :=
  match step (s.withFetchWord 16 w) with
  | .next _ => none
  | .fault f => some f
  | .refused _ => none

/-- The reply of a host operation and a look at the state behind it. -/
def hosted {α : Type} (o : HostOp) (s : State) (look : State → α) : Option (Reply × α) :=
  match perform o s with
  | .next (t, r) => some (r, look t)
  | .fault _ => none
  | .refused _ => none

/-- The reset state with `pc` elsewhere. -/
def atPc (a : Word) : State := State.reset.setPc a

/-- The reset state with V1, V2 and VF. -/
def v12f (a b f : Byte) : State := ((State.reset.setReg 1 a).setReg 2 b).setReg vf f

/-- V1, V2 and VF. -/
def see12f (s : State) : Byte × Byte × Byte := (s.reg 1, s.reg 2, s.reg vf)

/-- The reset state with key `k` down. -/
def keyAt (s : State) (k : Fin 16) : State := s.setKeys (s.keys.set k true)

/-- The sprite of D2: `FF 81` at 0x20A, V0 and V1 the coordinates. -/
def sprite (s : State) (x y : Byte) : State :=
  (((s.setI 0x20A).writeBytes 0x20A [0xFF, 0x81]).setReg 0 x).setReg 1 y

/-- One byte `b` at 0x300, V0 and V1 the coordinates (D4 to D9). -/
def dot (b x y : Byte) : State := (((State.reset.setI 0x300).writeBytes 0x300 [b]).setReg 0 x).setReg 1 y

/-! ## WellFormed: each check refuses an ill-formed term -/

/-- R76: the seven SUPER-CHIP instructions do not exist with `Q_SCHIP` false. -/
theorem test_wf_refuses_schip :
    ([.scd 2, .scr, .exit, .low, .high, .saveRpl 1, .restoreRpl 1] : List Instr).all
      (fun i => !i.wellFormed false && i.wellFormed true) = true := by decide

/-- R75: the base instructions exist in both settings. -/
theorem test_wf_accepts_base :
    ([.cls, .ret, .jp 0x204, .drw 0 1 2, .loadRegs 15] : List Instr).all
      (fun i => i.wellFormed false && i.wellFormed true) = true := by decide

/-! ## Decoding: every constructor, by words written out from the patterns of R75 and R76 -/

/-- R75, groups 0 to 7. -/
theorem test_decode_words_0_to_7 :
    [0x00E0, 0x00EE, 0x1204, 0x2ABC, 0x3F7E, 0x4211, 0x5340, 0x6105, 0x71FF].map (decode false) =
    [some .cls, some .ret, some (.jp 0x204), some (.call 0xABC), some (.seImm 15 0x7E), some (.sneImm 2 0x11),
      some (.seReg 3 4), some (.ldImm 1 5), some (.addImm 1 0xFF)] := by decide

/-- R75, group 8. -/
theorem test_decode_words_8 :
    [0x8120, 0x8121, 0x8122, 0x8123, 0x8124, 0x8125, 0x8126, 0x8127, 0x812E].map (decode false) =
    [some (.ldReg 1 2), some (.orReg 1 2), some (.andReg 1 2), some (.xorReg 1 2), some (.addReg 1 2),
      some (.sub 1 2), some (.shr 1 2), some (.subn 1 2), some (.shl 1 2)] := by decide

/-- R75, groups 9 to E. -/
theorem test_decode_words_9_to_E :
    [0x9340, 0xAFFF, 0xB300, 0xC30F, 0xD5A7, 0xE59E, 0xE5A1].map (decode false) =
    [some (.sneReg 3 4), some (.ldI 0xFFF), some (.jpV0 0x300), some (.rnd 3 0x0F), some (.drw 5 10 7),
      some (.skp 5), some (.sknp 5)] := by decide

/-- R75, group F. -/
theorem test_decode_words_F :
    [0xF407, 0xF30A, 0xF315, 0xF318, 0xF11E, 0xF229, 0xF033, 0xFF55, 0xF265].map (decode false) =
    [some (.ldVxDt 4), some (.ldVxK 3), some (.ldDtVx 3), some (.ldStVx 3), some (.addI 1), some (.ldF 2),
      some (.ldB 0), some (.storeRegs 15), some (.loadRegs 2)] := by decide

/-- R76. -/
theorem test_decode_words_schip :
    [0x00CF, 0x00C0, 0x00FB, 0x00FD, 0x00FE, 0x00FF, 0xF775, 0xF185].map (decode true) =
    [some (.scd 15), some (.scd 0), some .scr, some .exit, some .low, some .high, some (.saveRpl 7),
      some (.restoreRpl 1)] := by decide

/-- The bytes of P2's first word and what follows it: high byte first (R53). -/
theorem test_decode_bytes :
    decodeBytes false [0x60, 0xEA, 0xA3] = .instr (.ldImm 0 0xEA) [0xA3] ∧
    decodeBytes false [0x01, 0x23] = .unknownOpcode 0x0123 ∧ decodeBytes true [0x12] = .truncated := by decide

/-- The table word is the opcode itself (R70). -/
theorem test_decode_table_word :
    decodeTableWord 16 0xD012 = some (.drw 0 1 2) ∧ decodeTableWord 16 0x00FB = some .scr ∧
    decodeTableWord 16 0x8128 = none := by decide

/-- U1 to U10: no instruction in either setting. -/
theorem test_decode_refuses_illegal :
    ([0x0000, 0x0001, 0x00E1, 0x0123, 0x5121, 0x9121, 0x8128, 0x8129, 0x812A, 0x812B, 0x812C, 0x812D, 0x812F, 0xE19F,
      0xE100, 0xE1A0, 0xF100, 0xF1FF, 0xF130, 0xF156, 0x00FC] : List Word).all
      (fun w => (decode false w).isNone && (decode true w).isNone) = true := by decide

/-- U11: no instruction with `Q_SCHIP` false. -/
theorem test_decode_refuses_schip_words :
    ([0x00C1, 0x00FB, 0x00FD, 0x00FE, 0x00FF, 0xF075, 0xF085] : List Word).all
      (fun w => (decode false w).isNone && (decode true w).isSome) = true := by decide

/-! ## The fetch and the errors -/

/-- S11, U2: UnknownOpcode(0001), `pc` advanced, `IR` the word. -/
theorem test_unknown_opcode :
    ran State.reset 0x0001 (fun t => (t.cycleResult, t.pc, t.IR)) =
      some (.err (.unknownOpcode 0x0001), 0x202, 0x0001) := by decide +kernel

/-- T3: the fetch beyond 0x0FFE faults with the index `pc`. -/
theorem test_fetch_fault : step (atPc 0x0FFF) = .fault (.addressOutOfRange .mem 0x0FFF) := by rfl

/-- T4: an odd `pc` fetches `Mem[0201] ++ Mem[0202]`. -/
theorem test_odd_pc : ((atPc 0x201).writeBytes 0x200 [0x12, 0x01, 0x6A, 0x00]).fetched = 0x016A := by decide +kernel

/-- R54, T1: the word at 0x0FFE is the last that can be fetched. -/
theorem test_last_word :
    ran (atPc 0x0FFE) 0x6105 (fun t => (t.reg 1, t.pc)) = some (0x05, 0x1000) := by decide +kernel

/-! ## Display -/

/-- D1. -/
theorem test_cls :
    ran (State.reset.setFB (((Vector.replicate 256 0).set 8 0x0F).set 9 0xF0)) 0x00E0
      (fun t => (fbGet t.FB 8, fbGet t.FB 9, t.pc)) = some (0, 0, 0x202) := by decide +kernel

/-- D2, D3, D5, D6, D8: a sprite across a byte, drawn on itself, clipped at the right edge from a masked start, and hit in
its spill byte alone. -/
theorem test_drw_pixels :
    ran (sprite State.reset 4 1) 0xD012 (fun t => (fbGet t.FB 8, fbGet t.FB 9, fbGet t.FB 16, fbGet t.FB 17, t.reg vf)) =
      some (0x0F, 0xF0, 0x08, 0x10, 0) ∧
    ran ((sprite State.reset 4 1).setFB (((((Vector.replicate 256 0).set 8 0x0F).set 9 0xF0).set 16 0x08).set 17 0x10))
      0xD012 (fun t => (fbGet t.FB 8, fbGet t.FB 9, fbGet t.FB 16, fbGet t.FB 17, t.reg vf)) =
      some (0, 0, 0, 0, 1) ∧
    ran (dot 0xFF 0x7C 0x25) 0xD011 (fun t => (fbGet t.FB 47, fbGet t.FB 48, fbGet t.FB 40, t.reg vf)) =
      some (0x0F, 0, 0, 0) ∧
    ran ((dot 0x01 1 0).setFB ((Vector.replicate 256 0).set 1 0x80)) 0xD011 (fun t => (fbGet t.FB 1, t.reg vf)) =
      some (0, 1) := by decide +kernel

/-- D10 to D16: VF as the column, `n = 0`, the ends of memory, and the bottom edge under `Wrap`, `Clip` and `Fault`. -/
theorem test_drw_corners :
    ran ((dot 0x80 0 0).setReg vf 9) 0xDF11 (fun t => (fbGet t.FB 1, t.reg vf)) = some (0x40, 0) ∧
    ran (State.reset.setReg vf 1) 0xD120 (fun t => t.reg vf) = some 0 ∧
    ran ((State.reset.setI 0xFFC).setReg vf 1) 0xD124 (fun t => t.reg vf) = some 0 ∧
    faultOf (State.reset.setI 0xFFC) 0xD125 = some (.addressOutOfRange .mem 0x1000) ∧
    ran (sprite State.reset 0x3E 0x1F) 0xD012 (fun t => (fbGet t.FB 255, fbGet t.FB 7, t.reg vf)) = some (3, 2, 0) ∧
    ran (sprite (withCfg ({ · with rowOverflow := .clip })) 0x3E 0x1F) 0xD012
      (fun t => (fbGet t.FB 255, fbGet t.FB 7, t.reg vf)) = some (3, 0, 0) ∧
    faultOf (sprite (withCfg ({ · with rowOverflow := .fault })) 0x3E 0x1F) 0xD012 =
      some (.addressOutOfRange .frameBuffer 256) := by decide +kernel

/-! ## Control transfer -/

/-- T1, T3. -/
theorem test_jp : ran (atPc 0x20A) 0x1204 (·.pc) = some 0x204 ∧ ran State.reset 0x1FFF (·.pc) = some 0xFFF := by
  decide +kernel

/-- T5. -/
theorem test_call :
    ran (atPc 0x204) 0x220A (fun t => (t.sp, t.slot 1, t.pc)) = some (1, 0x206, 0x20A) := by decide +kernel

/-- T6, T7: the fifteenth nested call is the last. -/
theorem test_call_depth :
    ran { State.reset with sp := 14 } 0x22AA (fun t => (t.sp, t.slot 15, t.pc)) = some (15, 0x202, 0x2AA) ∧
    ran { State.reset with sp := 15 } 0x22AA (fun t => (t.sp, t.slot 15, t.pc, t.cycleResult)) =
      some (15, 0, 0x202, .err .stackOverflow) := by decide +kernel

/-- T8: the slot is left as it was. -/
theorem test_ret :
    ran { atPc 0x20C with sp := 1, stack := (Vector.replicate 16 0).set 1 0x206 } 0x00EE
      (fun t => (t.pc, t.sp, t.slot 1)) = some (0x206, 0, 0x206) := by decide +kernel

/-- T9. -/
theorem test_ret_empty :
    ran State.reset 0x00EE (fun t => (t.cycleResult, t.pc, t.sp)) = some (.err .noSubroutineToExit, 0x202, 0) := by
  decide +kernel

/-- T10, T11. -/
theorem test_se_imm :
    ran (atPc 0x208) 0x3100 (·.pc) = some 0x20C ∧ ran ((atPc 0x208).setReg 1 1) 0x3100 (·.pc) = some 0x20A := by
  decide +kernel

/-- T12, T13. -/
theorem test_sne_imm :
    ran ((atPc 0x300).setReg 2 0x10) 0x4211 (·.pc) = some 0x304 ∧
    ran ((atPc 0x300).setReg 2 0x11) 0x4211 (·.pc) = some 0x302 := by decide +kernel

/-- T14, and the other case by hand (R115). -/
theorem test_se_reg :
    ran (((atPc 0x210).setReg 3 7).setReg 4 7) 0x5340 (·.pc) = some 0x214 ∧
    ran (((atPc 0x210).setReg 3 7).setReg 4 8) 0x5340 (·.pc) = some 0x212 := by decide +kernel

/-- T16, T17. -/
theorem test_sne_reg :
    ran (((atPc 0x210).setReg 3 7).setReg 4 8) 0x9340 (·.pc) = some 0x214 ∧
    ran ((atPc 0x210).setReg 3 0x99) 0x9330 (·.pc) = some 0x212 := by decide +kernel

/-- T19, T21: V0 and no other register; the sum passes 12 bits. -/
theorem test_jp_v0 :
    ran ((State.reset.setReg 0 4).setReg 3 0x50) 0xB300 (·.pc) = some 0x304 ∧
    ran (State.reset.setReg 0 0xFF) 0xBFFF (·.pc) = some 0x10FE := by decide +kernel

/-! ## Load, arithmetic, logic, shift, random -/

/-- A1, A2. -/
theorem test_ld_imm :
    ran State.reset 0x6105 (·.reg 1) = some 5 ∧ ran State.reset 0x6F7B (·.reg vf) = some 0x7B := by decide +kernel

/-- A5, A6: no flag on overflow; VF as the destination. -/
theorem test_add_imm :
    ran (State.reset.setReg 1 0xFF) 0x7101 see12f = some (0, 0, 0) ∧
    ran (State.reset.setReg vf 1) 0x7FFF (·.reg vf) = some 0 := by decide +kernel

/-- A7. -/
theorem test_ld_reg : ran (v12f 0 0xAB 0) 0x8120 see12f = some (0xAB, 0xAB, 0) := by decide +kernel

/-- A8: VF untouched. -/
theorem test_or : ran (v12f 0xF0 0x0F 1) 0x8121 see12f = some (0xFF, 0x0F, 1) := by decide +kernel

/-- A9, with a VF that must survive (R134). -/
theorem test_and : ran (v12f 0xF3 0x3C 1) 0x8122 see12f = some (0x30, 0x3C, 1) := by decide +kernel

/-- A10, with a VF that must survive (R135). -/
theorem test_xor : ran (v12f 0xF3 0x3C 1) 0x8123 see12f = some (0xCF, 0x3C, 1) := by decide +kernel

/-- A13, A17. -/
theorem test_add_reg :
    ran (v12f 0xFF 1 0) 0x8124 see12f = some (0, 1, 1) ∧ ran (v12f 0 0 1) 0x8FF4 (·.reg vf) = some 0 := by decide +kernel

/-- A18, A19. -/
theorem test_sub :
    ran (v12f 5 5 0) 0x8125 see12f = some (0, 5, 1) ∧ ran (v12f 1 2 1) 0x8125 see12f = some (0xFF, 2, 0) := by
  decide +kernel

/-- A20: with VF the destination the flag wins. -/
theorem test_sub_vf : ran (v12f 2 0 1) 0x8F15 (·.reg vf) = some 0 := by decide +kernel

/-- A22, A25. -/
theorem test_shr :
    ran (v12f 0xFF 0xFE 1) 0x8126 see12f = some (0x7F, 0xFE, 0) ∧ ran (v12f 0x55 0 1) 0x81F6 see12f = some (0, 0, 1) := by
  decide +kernel

/-- A35: A22 with `Q_SHIFT` true. -/
theorem test_shr_quirk :
    ran ((v12f 0xFF 0xFE 0).withQuirks true false false) 0x8126 see12f = some (0x7F, 0xFE, 0) := by decide +kernel

/-- A27, A28. -/
theorem test_subn :
    ran (v12f 0 0xFF 0) 0x8127 see12f = some (0xFF, 0xFF, 1) ∧ ran (v12f 2 1 1) 0x8127 see12f = some (0xFF, 1, 0) := by
  decide +kernel

/-- A29, A30. -/
theorem test_shl :
    ran (v12f 0 0xFF 0) 0x812E see12f = some (0xFE, 0xFF, 1) ∧ ran (v12f 0 0x40 1) 0x812E see12f = some (0x80, 0x40, 0) := by
  decide +kernel

/-- A32: the draw A7 masked with 0F. -/
theorem test_rnd : (rndWith 0xA7 3 0x0F State.reset).reg 3 = 0x07 := by decide +kernel

/-- A33, A34: whatever the draw is. -/
theorem test_rnd_any_draw :
    ∀ r : Byte, (rndWith r 3 0x00 State.reset).reg 3 = 0 ∧ (rndWith r 3 0xFF State.reset).reg 3 = r := by
  intro r
  have h : r &&& 0xFF#8 = r := BitVec.and_allOnes
  simp [rndWith, h]

/-! ## Index and memory -/

/-- M2. -/
theorem test_ld_i : ran State.reset 0xAFFF (·.I) = some 0x0FFF := by decide +kernel

/-- M3, M4. -/
theorem test_add_i :
    ran ((State.reset.setI 0xFFF).setReg 1 2) 0xF11E (fun t => (t.I, t.reg vf)) = some (1, 1) ∧
    ran (((State.reset.setI 0xF00).setReg 1 0xFF).setReg vf 1) 0xF11E (fun t => (t.I, t.reg vf)) = some (0xFFF, 0) := by
  decide +kernel

/-- M7: VF as the addend. -/
theorem test_add_i_vf :
    ran ((State.reset.setI 0xFFF).setReg vf 1) 0xFF1E (fun t => (t.I, t.reg vf)) = some (0, 1) := by decide +kernel

/-- M10, M11. -/
theorem test_ld_f :
    ran (State.reset.setReg 1 0x0F) 0xF129 (·.I) = some 0x9B ∧ ran (State.reset.setReg 1 0x1A) 0xF129 (·.I) = some 0x82 := by
  decide +kernel

/-- M12, M16. -/
theorem test_ld_b :
    ran ((State.reset.setReg 0 0xEA).setI 0x300) 0xF033 (fun t => [0x300, 0x301, 0x302, 0x303].map t.readByte) =
      some [2, 3, 4, 0] ∧
    faultOf ((State.reset.setReg 1 9).setI 0xFFE) 0xF133 = some (.addressOutOfRange .mem 0x1000) := by decide +kernel

/-- M15: the last legal address. -/
theorem test_ld_b_top :
    ran ((State.reset.setReg 1 0xFF).setI 0xFFD) 0xF133 (fun t => [0xFFC, 0xFFD, 0xFFE, 0xFFF].map t.readByte) =
      some [0, 2, 5, 5] := by decide +kernel

/-- M17, M20. -/
theorem test_store_regs :
    ran (((((State.reset.setReg 0 0x11).setReg 1 0x22).setReg 2 0x33).setReg 3 0x44).setI 0x400) 0xF255
      (fun t => ([0x400, 0x401, 0x402, 0x403].map t.readByte, t.I)) = some ([0x11, 0x22, 0x33, 0], 0x400) ∧
    faultOf (State.reset.setI 0xFF1) 0xFF55 = some (.addressOutOfRange .mem 0x1000) := by decide +kernel

/-- M19: VF is stored too. -/
theorem test_store_all :
    ran ((State.reset.setReg vf 7).setI 0xFF0) 0xFF55 (fun t => [0xFEF, 0xFF0, 0xFFE, 0xFFF].map t.readByte) =
      some [0, 0, 0, 7] := by decide +kernel

/-- M21, M23. -/
theorem test_load_regs :
    ran ((State.reset.writeBytes 0x300 [2, 3, 4, 5]).setI 0x300) 0xF265
      (fun t => ([0, 1, 2, 3].map t.reg, t.I)) = some ([2, 3, 4, 0], 0x300) ∧
    faultOf (State.reset.setI 0xFFF) 0xF165 = some (.addressOutOfRange .mem 0x1000) := by decide +kernel

/-- M22, M25: the last byte of memory, and the font. -/
theorem test_load_one :
    ran ((State.reset.setReg 0 9).setI 0xFFF) 0xF065 (·.reg 0) = some 0 ∧
    ran (State.reset.setI 0x50) 0xF065 (·.reg 0) = some 0xF0 := by decide +kernel

/-! ## Keypad and timers -/

/-- K2, K3. -/
theorem test_skp :
    ran ((atPc 0x220).setReg 5 0x0A) 0xE59E (·.pc) = some 0x222 ∧
    ran (keyAt ((atPc 0x220).setReg 5 0x1A) 10) 0xE59E (·.pc) = some 0x224 := by decide +kernel

/-- K4, K5. -/
theorem test_sknp :
    ran ((atPc 0x220).setReg 5 0x0A) 0xE5A1 (·.pc) = some 0x224 ∧
    ran (keyAt ((atPc 0x220).setReg 5 0x0A) 10) 0xE5A1 (·.pc) = some 0x222 := by decide +kernel

/-- K6. -/
theorem test_ld_vx_dt : ran (State.reset.setDT 0x3C) 0xF407 (fun t => (t.reg 4, t.DT)) = some (0x3C, 0x3C) := by
  decide +kernel

/-- K7. -/
theorem test_ld_dt_vx : ran (State.reset.setReg 3 2) 0xF315 (fun t => (t.DT, t.ST)) = some (2, 0) := by decide +kernel

/-- K8. -/
theorem test_ld_st_vx : ran (State.reset.setReg 3 5) 0xF318 (fun t => (t.DT, t.ST)) = some (0, 5) := by decide +kernel

/-- K9, K10. -/
theorem test_ld_vx_k :
    ran State.reset 0xF30A (fun t => (t.pc, t.IR, t.reg 3, t.cycleResult)) = some (0x200, 0xF30A, 0, .ok) ∧
    ran (keyAt (keyAt State.reset 7) 2) 0xF30A (fun t => (t.pc, t.reg 3)) = some (0x202, 2) := by decide +kernel

/-- K12: VF as the destination. -/
theorem test_ld_vf_k : ran (keyAt State.reset 15) 0xFF0A (fun t => (t.pc, t.reg vf)) = some (0x202, 0x0F) := by
  decide +kernel

/-! ## SUPER-CHIP -/

/-- X1. -/
theorem test_scd :
    ran (State.reset.setFB (((Vector.replicate 256 0).set 0 0x80).set 0xF8 0xFF)) 0x00C2
      (fun t => (fbGet t.FB 0x10, fbGet t.FB 0, fbGet t.FB 0xF8)) = some (0x80, 0, 0) := by decide +kernel

/-- X2, X3. -/
theorem test_scd_ends :
    ran (State.reset.setFB (((Vector.replicate 256 0).set 0 0x80).set 0xFF 1)) 0x00CF
      (fun t => (fbGet t.FB 0x78, fbGet t.FB 0xFF)) = some (0x80, 0) ∧
    ran (State.reset.setFB (((Vector.replicate 256 0).set 0 0x80).set 0xFF 1)) 0x00C0
      (fun t => (fbGet t.FB 0, fbGet t.FB 0xFF)) = some (0x80, 1) := by decide +kernel

/-- X4. -/
theorem test_scr :
    ran (State.reset.setFB (((((Vector.replicate 256 0).set 0 0x12).set 1 0x34).set 7 0xAB).set 8 0xFF)) 0x00FB
      (fun t => [0, 1, 2, 3, 7, 8, 9].map (fbGet t.FB)) = some [0x01, 0x23, 0x40, 0, 0x0A, 0x0F, 0xF0] := by
  decide +kernel

/-- X5. -/
theorem test_exit :
    ran (atPc 0x204) 0x00FD (fun t => (t.cycleResult, t.pc)) = some (.err .programExited, 0x206) := by decide +kernel

/-- X6, X7. -/
theorem test_low :
    ran (State.reset.setHires true) 0x00FE (·.hires) = some false ∧ ran State.reset 0x00FE (·.hires) = some false := by
  decide +kernel

/-- X8, and set stays set by hand (R194). -/
theorem test_high :
    ran State.reset 0x00FF (·.hires) = some true ∧ ran (State.reset.setHires true) 0x00FF (·.hires) = some true := by
  decide +kernel

/-- X9, X11. -/
theorem test_save_rpl :
    ran (((State.reset.setReg 0 0xAA).setReg 1 0xBB).setReg 2 0xCC) 0xF175 (fun t => [t.RPL[0], t.RPL[1], t.RPL[2]]) =
      some [0xAA, 0xBB, 0] ∧
    ran (State.reset.setReg 0 0xAA) 0xF875 (fun t => (t.RPL[0], t.cycleResult)) =
      some (0, .err .invalidRegisterReference) := by decide +kernel

/-- X12, X13. -/
theorem test_restore_rpl :
    ran (State.reset.setRPL ((((Vector.replicate 8 0).set 0 0xAA).set 1 0xBB).set 2 0xCC)) 0xF185
      (fun t => [0, 1, 2].map t.reg) = some [0xAA, 0xBB, 0] ∧
    ran ((State.reset.setRPL (Vector.replicate 8 1)).setReg 0 5) 0xFF85 (fun t => (t.reg 0, t.cycleResult)) =
      some (5, .err .invalidRegisterReference) := by decide +kernel

/-- 2.6: the same words with `Q_SCHIP` false. -/
theorem test_schip_off :
    ran (withCfg ({ · with qSchip := false })) 0x00FD (fun t => (t.cycleResult, t.pc)) =
      some (.err (.unknownOpcode 0x00FD), 0x202) := by decide +kernel

/-! ## Host operations -/

/-- H1: the ROM, the font and zeros; everything else at its reset value. -/
theorem test_load :
    hosted (.load [0x12, 0x00, 0xAB]) ((State.reset.setReg 1 7).writeBytes 0x400 [9])
      (fun t => ([0x1FF, 0x200, 0x201, 0x202, 0x203, 0x400].map t.readByte, [0x4F, 0x50, 0x9F, 0xA0].map t.readByte,
        t.pc, t.reg 1)) =
      some (.ok, [0, 0x12, 0, 0xAB, 0, 0], [0, 0xF0, 0x80, 0], 0x200, 0) := by decide +kernel

/-- H6: RPL survives the load. -/
theorem test_load_keeps_rpl :
    hosted (.load [0xF1, 0x85]) (State.reset.setRPL ((Vector.replicate 8 0).set 0 0xAA)) (fun t => (t.RPL[0], t.reg 0)) =
      some (.ok, 0xAA, 0) := by decide +kernel

/-- H7. -/
theorem test_tick_delay :
    hosted .tickDelayTimer (State.reset.setDT 2) (·.DT) = some (.nothing, 1) ∧
    hosted .tickDelayTimer State.reset (·.DT) = some (.nothing, 0) := by decide +kernel

/-- H8: a beep while `ST` was non-zero. -/
theorem test_tick_sound :
    hosted .tickSoundTimer (State.reset.setST 1) (·.ST) = some (.beep true, 0) ∧
    hosted .tickSoundTimer State.reset (·.ST) = some (.beep false, 0) := by decide +kernel

/-- H9, H10. -/
theorem test_press :
    hosted (.press 0x0F) State.reset (fun t => (t.keyDown 15, t.keyDown 14)) = some (.ok, true, false) ∧
    hosted (.press 0x10) State.reset (fun t => t.keyDown 0) = some (.err .invalidKeycode, false) := by decide +kernel

/-- H11, H13. -/
theorem test_release :
    hosted (.release 3) (keyAt State.reset 3) (fun t => t.keyDown 3) = some (.ok, false) ∧
    hosted (.release 0xFF) (keyAt State.reset 15) (fun t => t.keyDown 15) = some (.err .invalidKeycode, true) := by
  decide +kernel

/-- H16. -/
theorem test_observe :
    hosted .currentOpcode State.reset (·.pc) = some (.word 0, 0x200) ∧
    hosted .programCounter State.reset (·.pc) = some (.word 0x200, 0x200) := by decide +kernel

/-- H15, by hand on its first words (R220). -/
theorem test_disassembled :
    [0, 1, 2].map ((State.reset.writeBytes 0x200 [0x60, 0x00, 0x61, 0x05]).listedWord) = [0x6000, 0x6105, 0] := by
  decide +kernel

/-- The reset memory is in canonical form (R51). -/
theorem test_reset_memory_wf : Memory.wf State.reset.cfg State.reset.mem = true := by decide

/-- Writing back what memory held after power-on leaves no cell behind. -/
theorem test_write_back :
    (((State.reset.writeBytes 0x050 [1, 2]).writeBytes 0x050 [0xF0, 0x90])).mem = [] := by decide +kernel

/-! ## Witnesses: every statement's hypotheses are met, at the ends of their ranges -/

/-- The reset state with the word `w` at `pc`. -/
def placed (w : Nat) : State := State.reset.withFetchWord 16 w

/-- The outcome is a next state. -/
def isNext {α β γ : Type} (o : Host.Outcome α β γ) : Bool :=
  match o with
  | .next _ => true
  | .fault _ => false
  | .refused _ => false

/-- `isNext` says what it is named for. -/
theorem isNext_exists {α β γ : Type} {o : Host.Outcome α β γ} (h : isNext o = true) : ∃ t, o = .next t := by
  cases o with
  | next t => exact ⟨t, rfl⟩
  | fault _ => simp [isNext] at h
  | refused _ => simp [isNext] at h

/-- DecodeOfEncode: both configurations. -/
theorem witness_DecodeOfEncode :
    Instr.wellFormed false (.drw 15 15 15) = true ∧ Instr.wellFormed true (.restoreRpl 15) = true := by decide

/-- EncodeOfDecode. -/
theorem witness_EncodeOfDecode :
    decode false 0xFFFF = none ∧ decode false 0xDFFF = some (.drw 15 15 15) ∧ decode true 0x00CF = some (.scd 15) := by
  decide

/-- StepRunsDecodedInstruction: at the last address a fetch can begin at. -/
theorem witness_StepRunsDecodedInstruction :
    ∃ s : State, s.pc.toNat = 0x0FFE ∧
      decode s.cfg.qSchip (s.readByte s.pc.toNat ++ s.readByte (s.pc.toNat + 1)) = some (.ldImm 1 5) :=
  ⟨(atPc 0xFFE).withFetchWord 16 0x6105, by decide +kernel⟩

/-- CycleDispatchesByTables: a fetch beyond memory, a base row, a SUPER-CHIP row, no row. -/
theorem witness_CycleDispatchesByTables :
    0x0FFE < (atPc 0x0FFF).pc.toNat ∧ (atPc 0x0FFE).pc.toNat ≤ 0x0FFE ∧
    (baseTable.any fun r => (placed 0x8124).fetched &&& r.mask == r.value) = true ∧
    (schipTable.any fun r => (placed 0x00FB).fetched &&& r.mask == r.value) = true ∧
    (placed 0x00FB).cfg.qSchip = true ∧
    ((baseTable ++ schipTable).all fun r => (placed 0x8128).fetched &&& r.mask != r.value) = true := by
  decide +kernel

/-- IllegalWordsAreReported: a word of each group, and at the ends of the 00Cn range. -/
theorem witness_IllegalWordsAreReported :
    ([0x0000, 0x00BF, 0x00D0, 0x00FC, 0x5001, 0x8008, 0x800F, 0x900F, 0xE000, 0xFF86] : List Word).all
      (fun w => @decide (IllegalWord true w) (by unfold IllegalWord; infer_instance)) = true ∧
    @decide (IllegalWord false 0x00C0) (by unfold IllegalWord; infer_instance) = true ∧
    @decide (IllegalWord true 0x00C0) (by unfold IllegalWord; infer_instance) = false ∧
    (placed 0x00FC).fetched = 0x00FC := by decide +kernel

/-- SuperChipNeedsQSchip. -/
theorem witness_SuperChipNeedsQSchip :
    (∃ s : State, s.pc.toNat ≤ 0x0FFE ∧ s.cfg.qSchip = false ∧ Instr.isSchip (.saveRpl 15) = true ∧
      s.fetched = encode (.saveRpl 15)) ∧ (0xFF30 : Word) &&& 0xF0FF = 0xF030 :=
  ⟨⟨(withCfg ({ · with qSchip := false })).withFetchWord 16 0xFF75, by decide +kernel⟩, by decide⟩

/-- FirstCycleAfterPowerOn: the standard font base, the last one below the program's first word and the first one above. -/
theorem witness_FirstCycleAfterPowerOn :
    Config.standard.fontBase.toNat + 80 ≤ 0x200 ∧
    ({ Config.standard with fontBase := 0x1B0 } : Config).fontBase.toNat + 80 = 0x200 ∧
    0x201 < ({ Config.standard with fontBase := 0x202 } : Config).fontBase.toNat := by decide

/-- StepKeepsInvariant: a state that is not the reset state, with a cell in memory and a call on the stack. -/
theorem witness_StepKeepsInvariant :
    State.Inv { placed 0x00EE with sp := 1, stack := (Vector.replicate 16 0).set 1 0x1000 } ∧
    ∃ t, step { placed 0x00EE with sp := 1, stack := (Vector.replicate 16 0).set 1 0x1000 } = .next t := by
  refine ⟨⟨?_, ?_, ?_, ?_, ?_, ?_⟩, isNext_exists ?_⟩ <;> decide +kernel

/-- HostOperationsKeepInvariant, EveryRunKeepsInvariant: such a state, and operations that answer. -/
theorem witness_HostOperationsKeepInvariant :
    State.Inv (placed 0x6105) ∧ (∃ t, perform (.load [0x12, 0x00]) (placed 0x6105) = .next t) ∧
    ∃ t, runOps [.press 3, .cycle, .tickSoundTimer, .programCounter] (placed 0x6105) = .next t := by
  refine ⟨⟨?_, ?_, ?_, ?_, ?_, ?_⟩, isNext_exists ?_, isNext_exists ?_⟩ <;> decide +kernel

/-- CanonicalMemoriesAreEqual: memories in the form, their cells at the ends of memory. -/
theorem witness_CanonicalMemoriesAreEqual :
    Memory.wf Config.standard [(0, 1), (0xFFF, 2)] = true ∧
    (∀ a, a < 4096 → Memory.read Config.standard [(0, 1), (0xFFF, 2)] a = Memory.read Config.standard [(0, 1), (0xFFF, 2)] a) :=
  ⟨by decide +kernel, fun _ _ => rfl⟩

/-- FlagAndDestinationRegisters: a flag-writing instruction, and one that names VF itself. -/
theorem witness_FlagAndDestinationRegisters :
    (∃ t, exec (.addReg 1 2) State.reset = .next t) ∧ Instr.writesFlag (.addReg 1 2) = true ∧
    ¬ Instr.names (.addReg 1 2) 3 ∧ ¬ (Instr.writesFlag (.addReg 1 2) = true ∧ (3 : Reg) = vf) ∧
    (∃ t, exec (.loadRegs 15) State.reset = .next t) ∧ Instr.names (.loadRegs 15) vf := by
  refine ⟨⟨_, rfl⟩, rfl, ?_, by decide, isNext_exists (by decide +kernel), ?_⟩ <;> (unfold Instr.names; decide)

/-- OnlyListedElementsChange: the addresses on both sides of the bytes FX55 stores. -/
theorem witness_OnlyListedElementsChange :
    (∃ t, exec (.storeRegs 2) (State.reset.setI 0x400) = .next t) ∧ 0x3FF < (State.reset.setI 0x400).base ∧
    (State.reset.setI 0x400).base + Instr.storedBytes (.storeRegs 2) = 0x403 :=
  ⟨isNext_exists (by decide +kernel), by decide, by decide⟩

/-- ErrorsArePrecise: a cycle that reports an error. -/
theorem witness_ErrorsArePrecise : ran State.reset 0xF875 (·.cycleResult) = some (.err .invalidRegisterReference) := by
  decide +kernel

/-- StepFaultsExactly: a fault, and none one byte below. -/
theorem witness_StepFaultsExactly :
    faultOf (State.reset.setI 0xFFE) 0xF133 = some (.addressOutOfRange .mem 0x1000) ∧
    faultOf (State.reset.setI 0xFFD) 0xF133 = none := by decide +kernel

/-- ConfigurationIsConstant: a step and a host operation that answer. -/
theorem witness_ConfigurationIsConstant :
    (∃ t, step (placed 0x6105) = .next t) ∧ ∃ t, perform .cycle (placed 0x6105) = .next t :=
  ⟨isNext_exists (by decide +kernel), isNext_exists (by decide +kernel)⟩

/-- UnreadStateHasNoInfluence: two states that differ. -/
theorem witness_UnreadStateHasNoInfluence :
    (State.reset.setHires true).forgetUnread = (State.reset.setST 9).forgetUnread ∧
    (State.reset.setHires true).hires ≠ (State.reset.setST 9).hires := ⟨rfl, by decide⟩

/-- StoredBytesAreFetchedNext: the smallest `x`, at the last address that can be fetched. -/
theorem witness_StoredBytesAreFetchedNext :
    ∃ s t : State, s.pc = s.I ∧ s.I = 0xFFE ∧ exec (.storeRegs 1) s = .next t := by
  refine ⟨(atPc 0xFFE).setI 0xFFE, ?_⟩
  obtain ⟨t, h⟩ := isNext_exists (o := exec (.storeRegs 1) ((atPc 0xFFE).setI 0xFFE)) (by decide +kernel)
  exact ⟨t, rfl, rfl, h⟩

/-- DrwXorsPixels, RetPopsOrReports, CallPushesOrReports: words of the three patterns, DXY0 among them. -/
theorem witness_words_drw_ret_call :
    (0xD120 : Word) &&& 0xF000 = 0xD000 ∧ (0x00EE : Word) &&& 0xFFFF = 0x00EE ∧ (0x2FFF : Word) &&& 0xF000 = 0x2000 := by
  decide

/-- DrwXorsPixels: the last source range, `n = 0` beyond memory, and a sprite that just fits under `Fault`. -/
theorem witness_DrwXorsPixels :
    (State.reset.setI 0xFFC).drawable 1 4 ∧ (State.reset.setI 0xFFFF).drawable 1 0 ∧
    (sprite (withCfg ({ · with rowOverflow := .fault })) 0x3E 0x1E).drawable 1 2 := by
  simp only [State.drawable, State.spriteBelow]; decide +kernel

/-- DrwFaultsOutOfRange: one byte beyond memory; one row below the screen. -/
theorem witness_DrwFaultsOutOfRange :
    1 ≤ (5 : BitVec 4).toNat ∧ 0xFFF < (State.reset.setI 0xFFC).base + (5 : BitVec 4).toNat - 1 ∧
    (sprite (withCfg ({ · with rowOverflow := .fault })) 0x3E 0x1F).base + (2 : BitVec 4).toNat - 1 ≤ 0xFFF ∧
    (sprite (withCfg ({ · with rowOverflow := .fault })) 0x3E 0x1F).cfg.rowOverflow = .fault ∧
    (sprite (withCfg ({ · with rowOverflow := .fault })) 0x3E 0x1F).spriteBelow 1 2 := by
  simp only [State.spriteBelow]; decide +kernel

/-- DrawingTwiceRestores: a sprite drawn twice, with a drawn pixel that was dark. -/
theorem witness_DrawingTwiceRestores :
    ∃ t u : State, exec (.drw 0 1 2) (sprite State.reset 4 1) = .next t ∧ exec (.drw 0 1 2) t = .next u ∧
      (0 : Reg) ≠ vf ∧ (1 : Reg) ≠ vf ∧ u.reg vf = 1 := by
  refine ⟨_, _, rfl, rfl, by decide, by decide, by decide +kernel⟩

/-- RetPopsOrReports, CallPushesOrReports, RetUndoesCall: the stack at both ends. -/
theorem witness_stack_ends :
    ({ State.reset with sp := 1 } : State).sp ≠ 0 ∧ State.reset.sp = 0 ∧
    ({ State.reset with sp := 14 } : State).sp ≠ 15 ∧ ({ State.reset with sp := 15 } : State).sp = 15 := by decide

/-- SkipsOnRegister: words of both groups with `n ≠ 0`. -/
theorem witness_SkipsOnRegister :
    ((0x5121 : Word) &&& 0xF000 = 0x5000 ∧ fieldN 0x5121 ≠ 0) ∧ (0x912F : Word) &&& 0xF000 = 0x9000 ∧
    fieldN 0x912F ≠ 0 := by decide

/-- AddSetsCarry, SubtractionsSetNoBorrow, ShiftsMoveVyByOne: a destination that is not VF. -/
theorem witness_destination_not_vf : (14 : Reg) ≠ vf := by decide

/-- LdFontPointsAtGlyph: the standard font base and the highest. -/
theorem witness_LdFontPointsAtGlyph :
    Config.wf Config.standard = true ∧ Config.wf { Config.standard with fontBase := 0xFB0 } = true := by decide

/-- BcdStoresDigits, BlockStoreCopiesRegisters, BlockLoadFillsRegisters: the last range inside memory and the first
outside. -/
theorem witness_memory_ranges :
    (State.reset.setI 0xFFD).I.toNat + 2 ≤ 0xFFF ∧ 0xFFF < (State.reset.setI 0xFFE).I.toNat + 2 ∧
    (State.reset.setI 0xFF0).I.toNat + (15 : Reg).val ≤ 0xFFF ∧
    0xFFF < (State.reset.setI 0xFF1).I.toNat + (15 : Reg).val := by decide

/-- KeySkips: the key of a register whose high nibble is not zero. -/
theorem witness_KeySkips : (10 : Fin 16).val = ((State.reset.setReg 5 0x1A).reg 5).toNat % 16 := by decide

/-- KeyWait: the lowest of two keys, and no key. -/
theorem witness_KeyWait :
    (keyAt (keyAt State.reset 7) 2).keyDown 2 = true ∧
    (∀ j, j < 2 → (keyAt (keyAt State.reset 7) 2).keyDown j = false) ∧ ∀ k, State.reset.keyDown k = false := by
  decide +kernel

/-- KeyWaitCycleStaysPut. -/
theorem witness_KeyWaitCycleStaysPut :
    (placed 0xF30A).pc.toNat ≤ 0x0FFE ∧ (placed 0xF30A).fetched = encode (.ldVxK 3) ∧
    ∀ k, (placed 0xF30A).keyDown k = false := by decide +kernel

/-- RplSaveAndRestore: the last register that has a cell and the first without. -/
theorem witness_RplSaveAndRestore : (7 : Reg).val ≤ 7 ∧ 7 < (8 : Reg).val := by decide

/-- LoadRebuildsTheMachine: the largest ROM and one byte more. -/
theorem witness_LoadRebuildsTheMachine :
    (List.replicate 3584 (0xFF : Byte)).length ≤ 3584 ∧ 3584 < (List.replicate 3585 (0xFF : Byte)).length :=
  ⟨List.length_replicate.le, List.length_replicate.ge⟩

/-- TickDelayTimer, TickSoundTimer: both cases. -/
theorem witness_ticks :
    0 < (State.reset.setDT 1).DT.toNat ∧ State.reset.DT.toNat = 0 ∧ 0 < (State.reset.setST 1).ST.toNat ∧
    State.reset.ST.toNat = 0 := by decide

/-- PressAndRelease: the last key and the first number that is none. -/
theorem witness_PressAndRelease : (15 : Byte).toNat = (15 : Fin 16).val ∧ 15 < (16 : Byte).toNat := by decide

/-- A step's outcome is evaluated by the kernel through the host's `core` too. -/
theorem test_core_runs : isNext (Sys2Proof.core.step (placed 0xF185)) = true := by decide +kernel

end Sys2Proof.Tests
end

section
/-! PROOFS. The display statements (`40_display.md`), and the two facts they share with other instructions: a row of the
base table encodes its instruction, and writing the frame buffer changes that element alone. -/

namespace Sys2Proof.Machine

/-- A row of the base table is an encoding, in either setting of `Q_SCHIP` (R74, R75). -/
theorem encodedAs_of_mem_baseTable {mask value : Word} {build : Word → Instr}
    (hr : (⟨mask, value, build⟩ : Row) ∈ baseTable) : EncodedAs mask value build :=
  fun schip _ hm => decode_of_base_row hr (beq_iff_eq.mpr hm) schip

/-- Replacing the frame buffer changes no other element. -/
theorem frame_setFB (s : State) (fb : FrameBuffer) : Frame [.FB] s (s.setFB fb) := by
  intro e he
  cases e
  case FB => exact absurd (List.mem_singleton_self _) he
  all_goals simp [Elem.same]

/-- The meaning of 00E0 (R100). -/
theorem exec_cls (s : State) : exec .cls s = .next (s.setFB (Vector.replicate 256 0)) := rfl

/-- Settles O25: 00E0 is the first row of the base table, and its meaning replaces the frame buffer by 256 zeros. -/
theorem clsClearsFrameBuffer : Obligations.ClsClearsFrameBuffer := by
  refine ⟨encodedAs_of_mem_baseTable (List.mem_of_getElem? (i := 0) rfl), fun s => ⟨_, exec_cls s, fun k => ?_, ?_⟩⟩
  · exact Vector.getElem_replicate k.isLt
  · exact frame_setFB s _

end Sys2Proof.Machine
end

section
/-! PROOFS. The control-flow statements (`41_control_flow.md`), and the two facts they share with the other jumps and skips:
moving `pc` changes that element alone, and what an instruction does whose meaning is the conditional skip. -/

namespace Sys2Proof.Machine

/-- Moving the program counter changes no other element. -/
theorem frame_setPc (s : State) (v : Word) : Frame [.pc] s (s.setPc v) := by
  intro e he
  cases e
  case pc => exact absurd (List.mem_singleton_self _) he
  all_goals simp [Elem.same]

/-- A state agrees with itself outside any elements. -/
theorem frame_refl (changed : List Elem) (s : State) : Frame changed s s := by
  intro e _
  cases e <;> simp [Elem.same]

/-- The conditional skip completes, moves `pc` by 2 exactly when its condition holds, and changes nothing else
(R12, R26). -/
theorem completes_of_exec_eq_skipIf {i : Instr} {s : State} {b : Bool} (h : exec i s = skipIf b s) :
    Completes i s fun t => t.pc = (if b then s.pc + 2 else s.pc) ∧ Frame [.pc] s t := by
  refine ⟨_, h.trans (skipIf_eq_next.mpr rfl), ?_⟩
  cases b
  case true => exact ⟨rfl, frame_setPc s _⟩
  case false => exact ⟨rfl, frame_refl _ s⟩

/-- The meaning of 1NNN (R111). -/
theorem exec_jp (nnn : BitVec 12) (s : State) : exec (.jp nnn) s = .next (s.setPc (addressOf nnn)) := rfl

/-- The meaning of 3XNN (R113). -/
theorem exec_seImm (x : Reg) (nn : Byte) (s : State) : exec (.seImm x nn) s = skipIf (s.reg x == nn) s := rfl

/-- The meaning of 4XNN (R114). -/
theorem exec_sneImm (x : Reg) (nn : Byte) (s : State) : exec (.sneImm x nn) s = skipIf (s.reg x != nn) s := rfl

/-- Settles O29: 1NNN is the third row of the base table, and its meaning moves `pc` to the 12-bit address alone. -/
theorem jpSetsPc : Obligations.JpSetsPc := by
  refine ⟨encodedAs_of_mem_baseTable (List.mem_of_getElem? (i := 2) rfl), fun nnn s => ⟨_, exec_jp nnn s, ?_, ?_⟩⟩
  · exact addressOf_toNat nnn
  · exact frame_setPc s _

/-- Settles O33: 3XNN and 4XNN are the fifth and sixth rows of the base table, and both are the conditional skip, on
`V[x] = nn` and on its negation. -/
theorem skipsOnImmediate : Obligations.SkipsOnImmediate := by
  refine ⟨encodedAs_of_mem_baseTable (List.mem_of_getElem? (i := 4) rfl),
    encodedAs_of_mem_baseTable (List.mem_of_getElem? (i := 5) rfl), fun x nn s => ⟨?_, ?_⟩⟩
  · simpa using completes_of_exec_eq_skipIf (exec_seImm x nn s)
  · simpa using completes_of_exec_eq_skipIf (exec_sneImm x nn s)

end Sys2Proof.Machine
end

section
/-! PROOFS. The load, arithmetic and logic statements (`42_alu.md`) of the instructions without a flag, and the fact they
share with every instruction whose whole effect is one register write. -/

namespace Sys2Proof.Machine

/-- Writing a register leaves the other registers as they were. -/
theorem regFrame_setReg (s : State) (x : Reg) (v : Byte) : RegFrame [x] s (s.setReg x v) :=
  fun _ hr => s.reg_setReg_of_ne v (List.ne_of_not_mem_cons hr)

/-- Writing a register changes no element but `V`. -/
theorem frame_setReg (s : State) (x : Reg) (v : Byte) : Frame [.V] s (s.setReg x v) := by
  intro e he
  cases e
  case V => exact absurd (List.mem_singleton_self _) he
  all_goals simp [Elem.same]

/-- An instruction whose meaning is to write `v` to `V[x]` completes and changes nothing else; what is to be said of the
state it leaves is a claim about `v`. -/
theorem completes_of_exec_eq_setReg {i : Instr} {s : State} {x : Reg} {v : Byte} {P : State → Prop}
    (h : exec i s = .next (s.setReg x v)) (hP : P (s.setReg x v)) :
    Completes i s fun t => P t ∧ RegFrame [x] s t ∧ Frame [.V] s t :=
  ⟨_, h, hP, regFrame_setReg s x v, frame_setReg s x v⟩

/-- The meaning of 6XNN (R130). -/
theorem exec_ldImm (x : Reg) (nn : Byte) (s : State) : exec (.ldImm x nn) s = .next (s.setReg x nn) := rfl

/-- The meaning of 7XNN (R131). -/
theorem exec_addImm (x : Reg) (nn : Byte) (s : State) :
    exec (.addImm x nn) s = .next (s.setReg x (s.reg x + nn)) := rfl

/-- The meaning of 8XY0 (R132). -/
theorem exec_ldReg (x y : Reg) (s : State) : exec (.ldReg x y) s = .next (s.setReg x (s.reg y)) := rfl

/-- The meaning of 8XY1 (R133). -/
theorem exec_orReg (x y : Reg) (s : State) :
    exec (.orReg x y) s = .next (s.setReg x (s.reg x ||| s.reg y)) := rfl

/-- The meaning of 8XY2 (R134). -/
theorem exec_andReg (x y : Reg) (s : State) :
    exec (.andReg x y) s = .next (s.setReg x (s.reg x &&& s.reg y)) := rfl

/-- The meaning of 8XY3 (R135). -/
theorem exec_xorReg (x y : Reg) (s : State) :
    exec (.xorReg x y) s = .next (s.setReg x (s.reg x ^^^ s.reg y)) := rfl

/-- Settles O36: 6XNN and 7XNN are the eighth and ninth rows of the base table, and both write `V[x]` alone; an 8-bit
sum is the sum of the numbers modulo 256. -/
theorem immediateLoadAndAdd : Obligations.ImmediateLoadAndAdd := by
  refine ⟨encodedAs_of_mem_baseTable (List.mem_of_getElem? (i := 7) rfl),
    encodedAs_of_mem_baseTable (List.mem_of_getElem? (i := 8) rfl), fun x nn s => ⟨?_, ?_⟩⟩
  · exact completes_of_exec_eq_setReg (exec_ldImm x nn s) (s.reg_setReg_self x nn)
  · refine completes_of_exec_eq_setReg (exec_addImm x nn s) ?_
    rw [State.reg_setReg_self, BitVec.toNat_add]

/-- Settles O37: 8XY0 to 8XY3 are the tenth to thirteenth rows of the base table, and each writes `V[x]` alone, with
`V[y]` or with a bitwise combination of `V[x]` and `V[y]`, read bit by bit. -/
theorem registerCopyAndLogic : Obligations.RegisterCopyAndLogic := by
  refine ⟨encodedAs_of_mem_baseTable (List.mem_of_getElem? (i := 9) rfl),
    encodedAs_of_mem_baseTable (List.mem_of_getElem? (i := 10) rfl),
    encodedAs_of_mem_baseTable (List.mem_of_getElem? (i := 11) rfl),
    encodedAs_of_mem_baseTable (List.mem_of_getElem? (i := 12) rfl), fun x y s => ⟨?_, ?_, ?_, ?_⟩⟩
  · exact completes_of_exec_eq_setReg (exec_ldReg x y s) (s.reg_setReg_self x (s.reg y))
  · refine completes_of_exec_eq_setReg (exec_orReg x y s) fun k _ => ?_
    rw [State.reg_setReg_self, BitVec.getLsbD_or]
  · refine completes_of_exec_eq_setReg (exec_andReg x y s) fun k _ => ?_
    rw [State.reg_setReg_self, BitVec.getLsbD_and]
  · refine completes_of_exec_eq_setReg (exec_xorReg x y s) fun k _ => ?_
    rw [State.reg_setReg_self, BitVec.getLsbD_xor]

end Sys2Proof.Machine
end

section
/-! PROOFS. The index-register statement (`43_index_memory.md`), and the fact it shares with the other instructions that
move `I`: that writes no other element. -/

namespace Sys2Proof.Machine

/-- Writing the index register changes no other element. -/
theorem frame_setI (s : State) (v : Word) : Frame [.I] s (s.setI v) := by
  intro e he
  cases e
  case I => exact absurd (List.mem_singleton_self _) he
  all_goals simp [Elem.same]

/-- The meaning of ANNN (R150). -/
theorem exec_ldI (nnn : BitVec 12) (s : State) : exec (.ldI nnn) s = .next (s.setI (addressOf nnn)) := rfl

/-- Settles O42: ANNN is the twentieth row of the base table, and its meaning sets `I` to the 12-bit address alone. -/
theorem ldIndexSetsI : Obligations.LdIndexSetsI := by
  refine ⟨encodedAs_of_mem_baseTable (List.mem_of_getElem? (i := 19) rfl), fun nnn s => ⟨_, exec_ldI nnn s, ?_, ?_⟩⟩
  · exact addressOf_toNat nnn
  · exact frame_setI s _

end Sys2Proof.Machine
end

section
/-! PROOFS. The key-skip statement (`44_keypad_timers.md`), and the key a register names: the remainder of its value by
16. -/

namespace Sys2Proof.Machine

/-- The key a register names is the low nibble of its value, as a number (R170, R171). -/
theorem keyOf_val (v : Byte) : (keyOf v).val = v.toNat % 16 := BitVec.extractLsb'_toNat 0 4 v

/-- The meaning of EX9E (R170). -/
theorem exec_skp (x : Reg) (s : State) : exec (.skp x) s = skipIf (s.keyDown (keyOf (s.reg x))) s := rfl

/-- The meaning of EXA1 (R171). -/
theorem exec_sknp (x : Reg) (s : State) : exec (.sknp x) s = skipIf (!s.keyDown (keyOf (s.reg x))) s := rfl

/-- Settles O48: EX9E and EXA1 are the twenty-fourth and twenty-fifth rows of the base table, and both are the
conditional skip, on the named key being down and on its negation. -/
theorem keySkips : Obligations.KeySkips := by
  refine ⟨encodedAs_of_mem_baseTable (List.mem_of_getElem? (i := 23) rfl),
    encodedAs_of_mem_baseTable (List.mem_of_getElem? (i := 24) rfl), fun x k s hk => ?_⟩
  have hkey : k = keyOf (s.reg x) := Fin.ext (hk.trans (keyOf_val _).symm)
  subst hkey
  constructor
  · exact completes_of_exec_eq_skipIf (exec_skp x s)
  · simpa only [Bool.not_eq_true', ← Bool.not_eq_true, ite_not] using completes_of_exec_eq_skipIf (exec_sknp x s)

end Sys2Proof.Machine
end

section
/-! PROOFS. The delay-timer statement (`50_host_interface.md`), and what a tick does to a timer's value: one less, and
zero stays. -/

namespace Sys2Proof.Machine

/-- A timer at zero stays there (R213, R214). -/
@[simp] theorem ticked_zero : ticked 0 = 0 := rfl

/-- A tick takes exactly one from a running timer (R213, R214). -/
theorem ticked_toNat_add_one {t : Byte} (h : 0 < t.toNat) : (ticked t).toNat + 1 = t.toNat := by
  have hne : t ≠ 0 := by rintro rfl; exact absurd h (by decide)
  have hle : 1 ≤ t := BitVec.le_def.mpr h
  rw [ticked, if_neg hne, BitVec.toNat_sub_of_le hle]
  exact Nat.sub_add_cancel h

/-- Writing the delay timer changes no other element. -/
theorem frame_setDT (s : State) (v : Byte) : Frame [.DT] s (s.setDT v) := by
  intro e he
  cases e
  case DT => exact absurd (List.mem_singleton_self _) he
  all_goals simp [Elem.same]

/-- What the host's delay-timer tick does and returns (R213). -/
theorem perform_tickDelayTimer (s : State) :
    perform .tickDelayTimer s = .next (s.setDT (ticked s.DT), .nothing) := rfl

/-- Settles O57: the operation writes the ticked value to `DT` alone. (`tickDelayTimer` itself names the model's
operation.) -/
theorem tickDelayTimer_decrements_toward_zero : Obligations.TickDelayTimer := by
  refine fun s => ⟨_, perform_tickDelayTimer s, ?_, ?_, frame_setDT s _⟩
  · exact ticked_toNat_add_one
  · intro hzero
    have hDT : s.DT = 0 := BitVec.eq_of_toNat_eq hzero
    rw [State.setDT_DT, hDT, ticked_zero]

end Sys2Proof.Machine
end

section
/-! PROOFS. The encoding statements (`30_encoding.md`): decoder and encoder are inverse to each other, and the illegal
words. -/

namespace Sys2Proof

/-! ## Decoding what was encoded -/

/-- Every instruction's opcode matches a row of its own table, and that row reads the instruction back. -/
theorem encode_matches_row (i : Instr) : Laws.EncodeMatchesRow.Statement i := by
  cases i with
  | cls => exact Laws.EncodeMatchesRow.cls
  | ret => exact Laws.EncodeMatchesRow.ret
  | jp nnn => exact Laws.EncodeMatchesRow.jp nnn
  | call nnn => exact Laws.EncodeMatchesRow.call nnn
  | seImm x nn => exact Laws.EncodeMatchesRow.seImm x nn
  | sneImm x nn => exact Laws.EncodeMatchesRow.sneImm x nn
  | seReg x y => exact Laws.EncodeMatchesRow.seReg x y
  | ldImm x nn => exact Laws.EncodeMatchesRow.ldImm x nn
  | addImm x nn => exact Laws.EncodeMatchesRow.addImm x nn
  | ldReg x y => exact Laws.EncodeMatchesRow.ldReg x y
  | orReg x y => exact Laws.EncodeMatchesRow.orReg x y
  | andReg x y => exact Laws.EncodeMatchesRow.andReg x y
  | xorReg x y => exact Laws.EncodeMatchesRow.xorReg x y
  | addReg x y => exact Laws.EncodeMatchesRow.addReg x y
  | sub x y => exact Laws.EncodeMatchesRow.sub x y
  | shr x y => exact Laws.EncodeMatchesRow.shr x y
  | subn x y => exact Laws.EncodeMatchesRow.subn x y
  | shl x y => exact Laws.EncodeMatchesRow.shl x y
  | sneReg x y => exact Laws.EncodeMatchesRow.sneReg x y
  | ldI nnn => exact Laws.EncodeMatchesRow.ldI nnn
  | jpV0 nnn => exact Laws.EncodeMatchesRow.jpV0 nnn
  | rnd x nn => exact Laws.EncodeMatchesRow.rnd x nn
  | drw x y n => exact Laws.EncodeMatchesRow.drw x y n
  | skp x => exact Laws.EncodeMatchesRow.skp x
  | sknp x => exact Laws.EncodeMatchesRow.sknp x
  | ldVxDt x => exact Laws.EncodeMatchesRow.ldVxDt x
  | ldVxK x => exact Laws.EncodeMatchesRow.ldVxK x
  | ldDtVx x => exact Laws.EncodeMatchesRow.ldDtVx x
  | ldStVx x => exact Laws.EncodeMatchesRow.ldStVx x
  | addI x => exact Laws.EncodeMatchesRow.addI x
  | ldF x => exact Laws.EncodeMatchesRow.ldF x
  | ldB x => exact Laws.EncodeMatchesRow.ldB x
  | storeRegs x => exact Laws.EncodeMatchesRow.storeRegs x
  | loadRegs x => exact Laws.EncodeMatchesRow.loadRegs x
  | scd n => exact Laws.EncodeMatchesRow.scd n
  | scr => exact Laws.EncodeMatchesRow.scr
  | exit => exact Laws.EncodeMatchesRow.exit
  | low => exact Laws.EncodeMatchesRow.low
  | high => exact Laws.EncodeMatchesRow.high
  | saveRpl x => exact Laws.EncodeMatchesRow.saveRpl x
  | restoreRpl x => exact Laws.EncodeMatchesRow.restoreRpl x

/-- A base instruction's opcode decodes to it in either setting (R75). -/
theorem decode_encode_of_base {i : Instr} (hi : i.isSchip = false) (schip : Bool) :
    decode schip (encode i) = some i := by
  obtain ⟨r, hr, hm, hb⟩ := encode_matches_row i
  rw [hi] at hr
  rw [decode_of_base_row hr hm, hb]

/-- A SUPER-CHIP instruction's opcode decodes to it with `Q_SCHIP` true, and to nothing otherwise (R76, R197). -/
theorem decode_encode_of_schip {i : Instr} (hi : i.isSchip = true) :
    decode true (encode i) = some i ∧ decode false (encode i) = none := by
  obtain ⟨r, hr, hm, hb⟩ := encode_matches_row i
  rw [hi] at hr
  obtain ⟨hon, hoff⟩ := decode_of_schip_row hr hm
  exact ⟨hon.trans (congrArg some hb), hoff⟩

/-- Decoding undoes encoding, for the instructions of the configuration. -/
theorem decode_encode {schip : Bool} {i : Instr} (hwf : i.wellFormed schip = true) :
    decode schip (encode i) = some i := by
  cases hi : i.isSchip with
  | false => exact decode_encode_of_base hi schip
  | true =>
    have hon : schip = true := by simpa [Instr.wellFormed, hi] using hwf
    rw [hon]
    exact (decode_encode_of_schip hi).1

/-- The decoder on bytes: the first two form the opcode, and the bytes behind them are left over (R53, R70). -/
theorem decodeBytes_of_decode {schip : Bool} {hi lo : Byte} {i : Instr}
    (hd : decode schip (joinBytes hi lo) = some i) (rest : List Byte) :
    decodeBytes schip (hi :: lo :: rest) = .instr i rest := by
  simp only [decodeBytes, hd]

/-- Settles O2: an opcode matches a row of its own instruction's table (`encode_matches_row`), no word matches two rows,
and the two bytes of an opcode join to it again. -/
theorem decodeOfEncode : Obligations.DecodeOfEncode := by
  intro schip i hwf
  refine ⟨decode_encode hwf, fun rest => decodeBytes_of_decode ?_ rest⟩
  rw [joinBytes_highByte_lowByte]
  exact decode_encode hwf

/-! ## Encoding what was decoded -/

/-- The row loses nothing of a word it matches: what it builds encodes to the word. -/
def Row.Faithful (r : Row) : Prop := ∀ op, r.matchesWord op = true → encode (r.build op) = op

/-- A row without operands is faithful if its instruction's opcode is its value. -/
theorem faithful_word {v : Word} {i : Instr} (h : encode i = v) : Row.Faithful ⟨0xFFFF, v, fun _ => i⟩ := by
  intro op hm
  have hop : op = v := BitVec.eq_of_toNat_eq (and_FFFF_iff.mp (beq_iff_eq.mp hm))
  rw [hop]
  exact h

/-- The bits of the field X. -/
theorem regBits_fieldX (op : Word) : regBits (fieldX op) = op.extractLsb' 8 4 := rfl

/-- The bits of the field Y. -/
theorem regBits_fieldY (op : Word) : regBits (fieldY op) = op.extractLsb' 4 4 := rfl

/-- A word with the format NNN's mask is its top nibble and the field NNN. -/
theorem nnn_join {op : Word} {t : BitVec 4} (h : op &&& 0xF000 = t ++ 0#12) : t ++ fieldNNN op = op := by
  apply BitVec.eq_of_getLsbD_eq
  intro k hk
  have hbit := congrArg (BitVec.getLsbD · k) h
  simp only [fieldNNN, BitVec.getLsbD_and, BitVec.getLsbD_append, BitVec.getLsbD_extractLsb'] at hbit ⊢
  interval_cases k <;> simp_all

/-- A word with the format XNN's mask is its top nibble and the fields X and NN. -/
theorem xnn_join {op : Word} {t : BitVec 4} (h : op &&& 0xF000 = t ++ 0#12) :
    t ++ regBits (fieldX op) ++ fieldNN op = op := by
  apply BitVec.eq_of_getLsbD_eq
  intro k hk
  have hbit := congrArg (BitVec.getLsbD · k) h
  simp only [regBits_fieldX, fieldNN, BitVec.getLsbD_and, BitVec.getLsbD_append, BitVec.getLsbD_extractLsb'] at hbit ⊢
  interval_cases k <;> simp_all

/-- A word with the format X's mask is its top nibble, the field X and its low byte. -/
theorem x_join {op : Word} {t : BitVec 4} {b : BitVec 8} (h : op &&& 0xF0FF = t ++ 0#4 ++ b) :
    t ++ regBits (fieldX op) ++ b = op := by
  apply BitVec.eq_of_getLsbD_eq
  intro k hk
  have hbit := congrArg (BitVec.getLsbD · k) h
  simp only [regBits_fieldX, BitVec.getLsbD_and, BitVec.getLsbD_append, BitVec.getLsbD_extractLsb'] at hbit ⊢
  interval_cases k <;> simp_all

/-- A word with the format XY's mask is its top nibble, the fields X and Y and its bottom nibble. -/
theorem xy_join {op : Word} {t c : BitVec 4} (h : op &&& 0xF00F = t ++ 0#4 ++ 0#4 ++ c) :
    t ++ regBits (fieldX op) ++ regBits (fieldY op) ++ c = op := by
  apply BitVec.eq_of_getLsbD_eq
  intro k hk
  have hbit := congrArg (BitVec.getLsbD · k) h
  simp only [regBits_fieldX, regBits_fieldY, BitVec.getLsbD_and, BitVec.getLsbD_append,
    BitVec.getLsbD_extractLsb'] at hbit ⊢
  interval_cases k <;> simp_all

/-- A word with the format XYN's mask is its top nibble and the fields X, Y and N. -/
theorem xyn_join {op : Word} {t : BitVec 4} (h : op &&& 0xF000 = t ++ 0#12) :
    t ++ regBits (fieldX op) ++ regBits (fieldY op) ++ fieldN op = op := by
  apply BitVec.eq_of_getLsbD_eq
  intro k hk
  have hbit := congrArg (BitVec.getLsbD · k) h
  simp only [regBits_fieldX, regBits_fieldY, fieldN, BitVec.getLsbD_and, BitVec.getLsbD_append,
    BitVec.getLsbD_extractLsb'] at hbit ⊢
  interval_cases k <;> simp_all

/-- A word with the format N's mask is its upper 12 bits and the field N. -/
theorem n_join {op : Word} {t : BitVec 12} (h : op &&& 0xFFF0 = t ++ 0#4) : t ++ fieldN op = op := by
  apply BitVec.eq_of_getLsbD_eq
  intro k hk
  have hbit := congrArg (BitVec.getLsbD · k) h
  simp only [fieldN, BitVec.getLsbD_and, BitVec.getLsbD_append, BitVec.getLsbD_extractLsb'] at hbit ⊢
  interval_cases k <;> simp_all

/-- A row of format NNN is faithful. -/
theorem faithful_nnn (t : BitVec 4) {v : Word} {f : BitVec 12 → Instr} (hv : v = t ++ 0#12)
    (h : ∀ a, encode (f a) = t ++ a) : Row.Faithful ⟨0xF000, v, fun op => f (fieldNNN op)⟩ :=
  fun _ hm => (h _).trans (nnn_join ((beq_iff_eq.mp hm).trans hv))

/-- A row of format XNN is faithful. -/
theorem faithful_xnn (t : BitVec 4) {v : Word} {f : Reg → Byte → Instr} (hv : v = t ++ 0#12)
    (h : ∀ x nn, encode (f x nn) = t ++ regBits x ++ nn) :
    Row.Faithful ⟨0xF000, v, fun op => f (fieldX op) (fieldNN op)⟩ :=
  fun _ hm => (h _ _).trans (xnn_join ((beq_iff_eq.mp hm).trans hv))

/-- A row of format XY is faithful. -/
theorem faithful_xy (t c : BitVec 4) {v : Word} {f : Reg → Reg → Instr} (hv : v = t ++ 0#4 ++ 0#4 ++ c)
    (h : ∀ x y, encode (f x y) = t ++ regBits x ++ regBits y ++ c) :
    Row.Faithful ⟨0xF00F, v, fun op => f (fieldX op) (fieldY op)⟩ :=
  fun _ hm => (h _ _).trans (xy_join ((beq_iff_eq.mp hm).trans hv))

/-- A row of format X is faithful. -/
theorem faithful_x (t : BitVec 4) (b : BitVec 8) {v : Word} {f : Reg → Instr} (hv : v = t ++ 0#4 ++ b)
    (h : ∀ x, encode (f x) = t ++ regBits x ++ b) : Row.Faithful ⟨0xF0FF, v, fun op => f (fieldX op)⟩ :=
  fun _ hm => (h _).trans (x_join ((beq_iff_eq.mp hm).trans hv))

/-- The row of DXYN is faithful. -/
theorem faithful_drw : Row.Faithful ⟨0xF000, 0xD000, fun op => .drw (fieldX op) (fieldY op) (fieldN op)⟩ :=
  fun _ hm => xyn_join (t := 0xD#4) (beq_iff_eq.mp hm)

/-- The row of 00CN is faithful. -/
theorem faithful_scd : Row.Faithful ⟨0xFFF0, 0x00C0, fun op => .scd (fieldN op)⟩ :=
  fun _ hm => n_join (t := 0x00C#12) (beq_iff_eq.mp hm)

/-- No row of the base table loses anything of its words, format by format. -/
theorem baseTable_faithful : ∀ r ∈ baseTable, r.Faithful := by
  simp only [baseTable, List.cons_append, List.nil_append, List.forall_mem_cons]
  exact ⟨faithful_word rfl, faithful_word rfl,
    faithful_nnn 0x1 rfl fun _ => rfl, faithful_nnn 0x2 rfl fun _ => rfl,
    faithful_xnn 0x3 rfl fun _ _ => rfl, faithful_xnn 0x4 rfl fun _ _ => rfl,
    faithful_xy 0x5 0x0 rfl fun _ _ => rfl,
    faithful_xnn 0x6 rfl fun _ _ => rfl, faithful_xnn 0x7 rfl fun _ _ => rfl,
    faithful_xy 0x8 0x0 rfl fun _ _ => rfl, faithful_xy 0x8 0x1 rfl fun _ _ => rfl,
    faithful_xy 0x8 0x2 rfl fun _ _ => rfl, faithful_xy 0x8 0x3 rfl fun _ _ => rfl,
    faithful_xy 0x8 0x4 rfl fun _ _ => rfl, faithful_xy 0x8 0x5 rfl fun _ _ => rfl,
    faithful_xy 0x8 0x6 rfl fun _ _ => rfl, faithful_xy 0x8 0x7 rfl fun _ _ => rfl,
    faithful_xy 0x8 0xE rfl fun _ _ => rfl, faithful_xy 0x9 0x0 rfl fun _ _ => rfl,
    faithful_nnn 0xA rfl fun _ => rfl, faithful_nnn 0xB rfl fun _ => rfl,
    faithful_xnn 0xC rfl fun _ _ => rfl, faithful_drw,
    faithful_x 0xE 0x9E rfl fun _ => rfl, faithful_x 0xE 0xA1 rfl fun _ => rfl,
    faithful_x 0xF 0x07 rfl fun _ => rfl, faithful_x 0xF 0x0A rfl fun _ => rfl,
    faithful_x 0xF 0x15 rfl fun _ => rfl, faithful_x 0xF 0x18 rfl fun _ => rfl,
    faithful_x 0xF 0x1E rfl fun _ => rfl, faithful_x 0xF 0x29 rfl fun _ => rfl,
    faithful_x 0xF 0x33 rfl fun _ => rfl, faithful_x 0xF 0x55 rfl fun _ => rfl,
    faithful_x 0xF 0x65 rfl fun _ => rfl, nofun⟩

/-- Nor does a row of the SUPER-CHIP table. -/
theorem schipTable_faithful : ∀ r ∈ schipTable, r.Faithful := by
  simp only [schipTable, List.forall_mem_cons]
  exact ⟨faithful_scd, faithful_word rfl, faithful_word rfl, faithful_word rfl, faithful_word rfl,
    faithful_x 0xF 0x75 rfl fun _ => rfl, faithful_x 0xF 0x85 rfl fun _ => rfl, nofun⟩

/-- The base table builds base instructions only (R75). -/
theorem baseTable_not_schip : ∀ r ∈ baseTable, ∀ op, (r.build op).isSchip = false := by
  simp [baseTable, Instr.isSchip]

/-- What decodes was found in the base table, or in the SUPER-CHIP table with `Q_SCHIP` true (R74). -/
theorem decode_eq_some {schip : Bool} {op : Word} {i : Instr} (h : decode schip op = some i) :
    lookup baseTable op = some i ∨ schip = true ∧ lookup schipTable op = some i := by
  unfold decode at h
  split at h
  · exact .inl (by rw [← h]; assumption)
  · split at h
    · exact .inr ⟨‹_›, h⟩
    · cases h

/-- Settles O3: no row of the two tables loses anything of a word it matches, and only the SUPER-CHIP table builds
SUPER-CHIP instructions. -/
theorem encodeOfDecode : Obligations.EncodeOfDecode := by
  intro schip op i h
  rcases decode_eq_some h with hbase | ⟨hon, hschip⟩
  · obtain ⟨r, hr, hm, rfl⟩ := lookup_eq_some hbase
    exact ⟨baseTable_faithful r hr op hm, by simp [Instr.wellFormed, baseTable_not_schip r hr op]⟩
  · obtain ⟨r, hr, hm, rfl⟩ := lookup_eq_some hschip
    exact ⟨schipTable_faithful r hr op hm, by simp [Instr.wellFormed, hon]⟩

/-- Settles O1: each of the twelve words is looked up in the tables. -/
theorem specWordsDecode : Obligations.SpecWordsDecode := by
  unfold Obligations.SpecWordsDecode
  decide

end Sys2Proof
end

section
/-! PROOFS. The statements about one cycle's dispatch (`30_encoding.md` R74 to R77, `45_superchip.md` R197). -/

namespace Sys2Proof.Machine

/-- Settles O4: the two bytes at `pc` joined are the fetched opcode. -/
theorem stepRunsDecodedInstruction : Obligations.StepRunsDecodedInstruction :=
  fun _ _ hpc hd => step_of_decode hpc hd

/-! ## The tables -/

/-- No row matches exactly when the word decodes to nothing (R77). -/
theorem decode_eq_none {schip : Bool} {op : Word} :
    decode schip op = none ↔ (∀ r ∈ baseTable, op &&& r.mask ≠ r.value) ∧
      (schip = true → ∀ r ∈ schipTable, op &&& r.mask ≠ r.value) := by
  have hmiss : ∀ table, lookup table op = none ↔ ∀ r ∈ table, op &&& r.mask ≠ r.value := by
    simp [lookup_eq_none, Row.matchesWord]
  rw [← hmiss, ← hmiss]
  unfold decode
  cases lookup baseTable op <;> cases schip <;> simp

/-- In a list of rows that are apart, the row a word matches is the only one. -/
theorem row_unique {table : List Row} (ht : table.Pairwise (fun r q => r.apart q = true)) {op : Word}
    {j k : Fin table.length} (hj : table[j].matchesWord op = true) (hk : table[k].matchesWord op = true) : j = k := by
  rw [List.pairwise_iff_getElem] at ht
  rcases lt_trichotomy j.val k.val with hlt | heq | hgt
  · exact absurd ⟨hj, hk⟩ (Row.not_both (ht _ _ j.isLt k.isLt hlt) op)
  · exact Fin.ext heq
  · exact absurd ⟨hk, hj⟩ (Row.not_both (ht _ _ k.isLt j.isLt hgt) op)

/-- Settles O5: the cases of one cycle are those of the fetch and of the decoder, and no two rows of the two tables have
a word in common. -/
theorem cycleDispatchesByTables : Obligations.CycleDispatchesByTables := by
  refine ⟨fun s hpc => step_of_not_fetchable hpc, ?_, fun op j k hj hk => ?_⟩
  · rintro s op t hpc rfl rfl
    refine ⟨fun r hr hm => ?_, fun r hr hm hon => ?_, fun hbase hschip => ?_⟩
    · exact step_of_decode hpc (decode_of_base_row hr (beq_iff_eq.mpr hm) _)
    · refine step_of_decode hpc ?_
      rw [hon]
      exact (decode_of_schip_row hr (beq_iff_eq.mpr hm)).1
    · exact step_of_unknown hpc (decode_eq_none.mpr ⟨hbase, hschip⟩)
  · exact row_unique tables_apart (beq_iff_eq.mpr hj) (beq_iff_eq.mpr hk)

/-! ## The illegal words -/

/-- The words no row of the base table matches, in numbers: case by case of the top nibble, what the rows of that nibble
leave out below it (R75). -/
theorem misses_baseTable_iff {op : Word} :
    (∀ r ∈ baseTable, op &&& r.mask ≠ r.value) ↔ IllegalWord false op := by
  simp only [baseTable, List.cons_append, List.nil_append, List.forall_mem_cons, ne_eq]
  simp (disch := decide) only [and_FFFF_iff, and_F000_iff, and_F00F_iff, and_F0FF_iff, BitVec.reduceToNat,
    Nat.reduceDiv, Nat.reduceMod]
  simp only [IllegalWord]
  have hlt := op.isLt
  generalize op.toNat = w at hlt ⊢
  have htop : w / 4096 < 16 := by omega
  generalize hq : w / 4096 = q at htop ⊢
  interval_cases q <;> simp <;> omega

/-- The words no row of the SUPER-CHIP table matches, in numbers (R76). -/
theorem misses_schipTable_iff {op : Word} :
    (∀ r ∈ schipTable, op &&& r.mask ≠ r.value) ↔
      ¬ ((0x00C0 ≤ op.toNat ∧ op.toNat ≤ 0x00CF) ∨ op.toNat ∈ [0x00FB, 0x00FD, 0x00FE, 0x00FF]) ∧
      ¬ (op.toNat / 4096 = 0xF ∧ op.toNat % 256 ∈ [0x75, 0x85]) := by
  simp only [schipTable, List.forall_mem_cons, ne_eq]
  simp (disch := decide) only [and_FFFF_iff, and_FFF0_iff, and_F0FF_iff, BitVec.reduceToNat, Nat.reduceDiv,
    Nat.reduceMod]
  simp
  omega

/-- With `Q_SCHIP` true the illegal words are those without it, less the words of the SUPER-CHIP table (R77). -/
theorem illegalWord_true_iff {op : Word} :
    IllegalWord true op ↔ IllegalWord false op ∧
      ¬ ((0x00C0 ≤ op.toNat ∧ op.toNat ≤ 0x00CF) ∨ op.toNat ∈ [0x00FB, 0x00FD, 0x00FE, 0x00FF]) ∧
      ¬ (op.toNat / 4096 = 0xF ∧ op.toNat % 256 ∈ [0x75, 0x85]) := by
  have hlt := op.isLt
  simp only [IllegalWord]
  generalize op.toNat = w at hlt ⊢
  have htop : w / 4096 < 16 := by omega
  generalize hq : w / 4096 = q at htop ⊢
  interval_cases q <;> simp <;> omega
/-- The illegal words are those that decode to nothing. -/
theorem decode_eq_none_iff_illegalWord {schip : Bool} {op : Word} : decode schip op = none ↔ IllegalWord schip op := by
  rw [decode_eq_none, misses_baseTable_iff, misses_schipTable_iff]
  cases schip with
  | false => simp
  | true => simp only [illegalWord_true_iff, forall_const]

/-- Settles O6: row by row, the words the tables leave out are those of the list, and a cycle that fetches one runs
step 8 of R74. -/
theorem illegalWordsAreReported : Obligations.IllegalWordsAreReported :=
  ⟨fun _ _ => decode_eq_none_iff_illegalWord, fun _ hpc hill =>
    step_of_unknown hpc (decode_eq_none_iff_illegalWord.mpr hill)⟩

/-- Settles O7: with `Q_SCHIP` false a SUPER-CHIP opcode decodes to nothing; 00FC and FX30 are in groups (a) and (f) of
the illegal words in both settings. -/
theorem superChipNeedsQSchip : Obligations.SuperChipNeedsQSchip := by
  constructor
  · intro s i hpc hoff hschip hfetch
    rw [← hfetch]
    refine step_of_unknown hpc ?_
    rw [hoff, hfetch]
    exact (decode_encode_of_schip hschip).2
  · intro schip op hop
    rw [decode_eq_none_iff_illegalWord]
    rcases hop with rfl | hmask
    · exact .inl (by simp)
    · obtain ⟨htop, hlow⟩ := (and_F0FF_iff (by decide)).mp hmask
      refine .inr (.inr (.inr (.inr (.inr ⟨htop, ?_⟩))))
      rw [hlow]
      simp

end Sys2Proof.Machine
end

section
/-! PROOFS. What each instruction does, said once: the meanings as equations, the frames of the updates they are made
of, and `exec_effect`, one case per way an instruction can end. The whole-machine statements below are read off it. -/

namespace Sys2Proof.Machine

/-! ## Frames of the updates -/

/-- A frame may be widened. -/
theorem Frame.mono {l l' : List Elem} {s t : State} (h : Frame l s t) (hl : l ⊆ l') : Frame l' s t :=
  fun e he => h e fun hm => he (hl hm)

/-- An element that is the same from `s` to `t` and from `t` to `u` is the same from `s` to `u`. -/
theorem Elem.same_trans {e : Elem} {s t u : State} (h : e.same s t) (h' : e.same t u) : e.same s u := by
  cases e
  case mem => exact fun a => (h' a).trans (h a)
  case V => exact fun r => (h' r).trans (h r)
  case stack => exact fun k => (h' k).trans (h k)
  case keys => exact fun k => (h' k).trans (h k)
  all_goals exact Eq.trans h' h

/-- Two changes after one another change at most what either does. -/
theorem Frame.trans {l : List Elem} {s t u : State} (h : Frame l s t) (h' : Frame l t u) : Frame l s u :=
  fun e he => Elem.same_trans (e := e) (h e he) (h' e he)

/-- Taking an error writes the cycle's result alone (R252). -/
theorem frame_setCycleResult (s : State) (v : CycleResult) : Frame [.cycleResult] s (s.setCycleResult v) := by
  intro e he
  cases e <;> simp_all [Elem.same]

/-- Writing the whole register file changes no element but `V`. -/
theorem frame_setV (s : State) (v : Vector Byte 16) : Frame [.V] s (s.setV v) := by
  intro e he
  cases e <;> simp_all [Elem.same]

/-- Writing the sound timer changes no other element. -/
theorem frame_setST (s : State) (v : Byte) : Frame [.ST] s (s.setST v) := by
  intro e he
  cases e <;> simp_all [Elem.same]

/-- Writing the keys changes no other element. -/
theorem frame_setKeys (s : State) (v : Vector Bool 16) : Frame [.keys] s (s.setKeys v) := by
  intro e he
  cases e <;> simp_all [Elem.same]

/-- Writing the display mode changes no other element. -/
theorem frame_setHires (s : State) (v : Bool) : Frame [.hires] s (s.setHires v) := by
  intro e he
  cases e <;> simp_all [Elem.same]

/-- Writing the RPL cells changes no other element. -/
theorem frame_setRPL (s : State) (v : Vector Byte 8) : Frame [.RPL] s (s.setRPL v) := by
  intro e he
  cases e <;> simp_all [Elem.same]

/-- Using a draw advances the count alone (R223). -/
theorem frame_useDraw (s : State) : Frame [.draws] s s.useDraw := by
  intro e he
  cases e <;> simp_all [Elem.same]

/-- Storing bytes changes memory alone. -/
theorem frame_writeBytes (s : State) (a : Nat) (vs : List Byte) : Frame [.mem] s (s.writeBytes a vs) := by
  intro e he
  cases e <;> simp_all [Elem.same]

/-- A return moves `pc` and `sp` alone: the slot is left as it was (R27). -/
theorem frame_pop (s : State) : Frame [.pc, .sp] s s.pop := by
  intro e he
  cases e <;> simp_all [Elem.same]

/-- A call moves `sp` and writes a slot alone (R27). -/
theorem frame_push (s : State) (v : Word) : Frame [.sp, .stack] s (s.push v) := by
  intro e he
  cases e <;> simp_all [Elem.same]

/-- Writing VF as a flag changes no element but `V`. -/
theorem frame_setFlag (s : State) (b : Bool) : Frame [.V] s (s.setFlag b) := frame_setReg s vf (flagByte b)

/-- Writing a result and then VF changes no element but `V`. -/
theorem frame_setRegFlag (s : State) (x : Reg) (v : Byte) (b : Bool) : Frame [.V] s (s.setRegFlag x v b) :=
  (frame_setReg s x v).trans (frame_setFlag _ b)

/-- Writing a result and then VF leaves the other registers as they were. -/
theorem regFrame_setRegFlag (s : State) (x : Reg) (v : Byte) (b : Bool) : RegFrame [x, vf] s (s.setRegFlag x v b) := by
  intro r hr
  simp only [List.mem_cons, List.not_mem_nil, or_false, not_or] at hr
  rw [State.reg_setRegFlag, if_neg hr.2, if_neg hr.1]

/-! ## The meanings that are not stated above -/

/-- The meaning of 00EE (R110). -/
theorem exec_ret (s : State) : exec .ret s = if s.sp = 0 then raiseErr .noSubroutineToExit s else .next s.pop := rfl

/-- The meaning of 2NNN (R112). -/
theorem exec_call (nnn : BitVec 12) (s : State) :
    exec (.call nnn) s =
      if s.sp = 15 then raiseErr .stackOverflow s else .next ((s.push s.pc).setPc (addressOf nnn)) := rfl

/-- The meaning of FX0A (R173): no key is down. -/
theorem exec_ldVxK_of_none {x : Reg} {s : State} (h : s.lowestKey = none) :
    exec (.ldVxK x) s = .next (s.setPc (s.pc - 2)) := by
  simp [exec, execLdVxK, h]

/-- The meaning of FX0A (R173): `k` is the lowest key down. -/
theorem exec_ldVxK_of_some {x : Reg} {s : State} {k : Fin 16} (h : s.lowestKey = some k) :
    exec (.ldVxK x) s = .next (s.setReg x (keyByte k)) := by
  simp [exec, execLdVxK, h]

/-- The meaning of FX33 (R153). -/
theorem exec_ldB (x : Reg) (s : State) :
    exec (.ldB x) s = needBytes s.base 3 (.next (s.writeBytes s.base (decimalDigits (s.reg x)))) := rfl

/-- The meaning of FX55 (R154). -/
theorem exec_storeRegs (x : Reg) (s : State) :
    exec (.storeRegs x) s = needBytes s.base (x.val + 1) (.next (s.writeBytes s.base (s.regsUpTo x))) := rfl

/-- The meaning of FX65 (R155). -/
theorem exec_loadRegs (x : Reg) (s : State) :
    exec (.loadRegs x) s = needBytes s.base (x.val + 1) (.next (s.setV (s.loadedRegs x))) := rfl

/-- The meaning of FX75 (R195). -/
theorem exec_saveRpl (x : Reg) (s : State) :
    exec (.saveRpl x) s = if 7 < x.val then raiseErr .invalidRegisterReference s
      else .next (s.setRPL (tabulate 8 fun i => if i.val ≤ x.val then s.reg ⟨i.val, by omega⟩ else s.RPL[i])) := rfl

/-- The meaning of FX85 (R196). -/
theorem exec_restoreRpl (x : Reg) (s : State) :
    exec (.restoreRpl x) s = if 7 < x.val then raiseErr .invalidRegisterReference s
      else .next (s.setV (tabulate 16 fun i => if i ≤ x then s.RPL[i.val]?.getD 0 else s.reg i)) := rfl

/-- The state a sprite within bounds leaves (R101): the drawn frame buffer, and the collision in VF. -/
def State.drawn (s : State) (x y : Reg) (n : BitVec 4) : State :=
  let d := drawSprite s (startColumn (s.reg x)) (startRow (s.reg y)) n.toNat
  (s.setFB d.1).setFlag d.2

/-- The meaning of DXYN (R101, R103): the memory range is checked, then the bottom edge, then the sprite is drawn. -/
theorem exec_drw (x y : Reg) (n : BitVec 4) (s : State) :
    exec (.drw x y n) s = needBytes s.base n.toNat
      (if s.cfg.rowOverflow = .fault ∧ 1 ≤ n.toNat ∧ 31 < startRow (s.reg y) + n.toNat - 1 then
        .fault (.addressOutOfRange .frameBuffer 256)
      else .next (s.drawn x y n)) := rfl

/-! ## The ways an instruction can end -/

/-- Every way `exec i s` can end, with what the whole-machine statements need to know of it: the elements it is allowed
to write, the registers it names, whether it writes VF as a flag, and the bounds of what it writes. `exec_effect` ties
it to the model. -/
inductive Effect (i : Instr) (s : State) : Result → Prop where
  /-- One of the four errors an instruction can report (R240). -/
  | report (e : ErrorKind)
      (kind : e ∈ [.stackOverflow, .noSubroutineToExit, .programExited, .invalidRegisterReference])
      (writes : .cycleResult ∈ i.writes) (noFlag : i.writesFlag = false) :
      Effect i s (.next (s.setCycleResult (.err e)))
  /-- A jump, a skip that is taken, or the waiting FX0A. -/
  | moves (v : Word) (target : v.toNat ≤ 0x10FE ∨ v = s.pc + 2 ∨ v = s.pc - 2)
      (writes : .pc ∈ i.writes) (noFlag : i.writesFlag = false) : Effect i s (.next (s.setPc v))
  /-- A skip that is not taken. -/
  | stays (noFlag : i.writesFlag = false) : Effect i s (.next s)
  /-- A return. -/
  | returns (isRet : i = .ret) : Effect i s (.next s.pop)
  /-- A call. -/
  | calls (nnn : BitVec 12) (isCall : i = .call nnn) (room : s.sp ≠ 15) :
      Effect i s (.next ((s.push s.pc).setPc (addressOf nnn)))
  /-- A clear or a scroll. -/
  | paints (fb : FrameBuffer) (writes : .FB ∈ i.writes) (noFlag : i.writesFlag = false) :
      Effect i s (.next (s.setFB fb))
  /-- A sprite. -/
  | draws (x y : Reg) (n : BitVec 4) (isDrw : i = .drw x y n) : Effect i s (.next (s.drawn x y n))
  /-- One register. -/
  | writesReg (x : Reg) (v : Byte) (named : i.names x) (writes : .V ∈ i.writes) (noFlag : i.writesFlag = false) :
      Effect i s (.next (s.setReg x v))
  /-- One register and the flag (R142). -/
  | writesRegFlag (x : Reg) (v : Byte) (b : Bool) (named : i.names x) (writes : .V ∈ i.writes)
      (flag : i.writesFlag = true) :
      Effect i s (.next (s.setRegFlag x v b))
  /-- A random byte. -/
  | randomizes (x : Reg) (nn v : Byte) (isRnd : i = .rnd x nn) : Effect i s (.next (s.setReg x v).useDraw)
  /-- The index register. -/
  | writesI (v : Word) (bound : s.cfg.wf = true → v.toNat ≤ 0x0FFF) (writes : .I ∈ i.writes)
      (noFlag : i.writesFlag = false) : Effect i s (.next (s.setI v))
  /-- The index register and the flag (R151). -/
  | writesIFlag (x : Reg) (v : Word) (b : Bool) (bound : v.toNat ≤ 0x0FFF) (isAddI : i = .addI x) :
      Effect i s (.next ((s.setI v).setFlag b))
  /-- The delay timer. -/
  | writesDT (x : Reg) (v : Byte) (isLd : i = .ldDtVx x) : Effect i s (.next (s.setDT v))
  /-- The sound timer. -/
  | writesST (x : Reg) (v : Byte) (isLd : i = .ldStVx x) : Effect i s (.next (s.setST v))
  /-- Bytes from the index register's address on, all of them inside memory. -/
  | stores (vs : List Byte) (length : vs.length = i.storedBytes) (inside : s.base + vs.length ≤ 4096)
      (writes : .mem ∈ i.writes) (noFlag : i.writesFlag = false) : Effect i s (.next (s.writeBytes s.base vs))
  /-- The named registers. -/
  | loads (v : Vector Byte 16) (others : ∀ r : Reg, ¬ i.names r → v[r] = s.reg r) (writes : .V ∈ i.writes)
      (noFlag : i.writesFlag = false) : Effect i s (.next (s.setV v))
  /-- The RPL cells. -/
  | saves (x : Reg) (v : Vector Byte 8) (isSave : i = .saveRpl x) : Effect i s (.next (s.setRPL v))
  /-- The display mode. -/
  | setsMode (b : Bool) (writes : .hires ∈ i.writes) (noFlag : i.writesFlag = false) :
      Effect i s (.next (s.setHires b))
  /-- A range outside its array (R249). -/
  | faults (f : Fault) (cause : FaultCause i s f) : Effect i s (.fault f)

/-- An instruction that is a conditional skip moves `pc` by 2 or does nothing. -/
theorem Effect.of_skipIf {i : Instr} {s : State} (b : Bool) (hw : .pc ∈ i.writes) (hf : i.writesFlag = false) :
    Effect i s (skipIf b s) := by
  cases b
  case true => exact .moves _ (.inr (.inl rfl)) hw hf
  case false => exact .stays hf

/-- An instruction with a memory range faults if the range leaves memory, and ends as what is guarded does otherwise. -/
theorem Effect.of_needBytes {i : Instr} {s : State} {len : Nat} {k : Result}
    (hout : 1 ≤ len → 4096 < s.base + len → FaultCause i s (.addressOutOfRange .mem 0x1000))
    (hin : len = 0 ∨ s.base + len ≤ 4096 → Effect i s k) : Effect i s (needBytes s.base len k) := by
  by_cases h : len = 0 ∨ s.base + len ≤ 4096
  · rw [needBytes_of_inside h]
    exact hin h
  · rw [needBytes_of_outside (by omega) (by omega)]
    exact .faults _ (hout (by omega) (by omega))

/-- The glyph of a register's low nibble, in numbers (R152, D3, D20). -/
theorem glyphAddress_toNat {c : Config} (hwf : c.wf = true) (v : Byte) :
    (glyphAddress c v).toNat = c.fontBase.toNat + 5 * (v.toNat % 16) := by
  have hfont : c.fontBase.toNat + 80 ≤ 4096 := of_decide_eq_true hwf
  have hmask : (v &&& 0x0F).toNat = v.toNat % 16 := by
    rw [BitVec.toNat_and]; exact Nat.and_two_pow_sub_one_eq_mod v.toNat 4
  have hfive : (5 : Word).toNat = 5 := rfl
  simp only [glyphAddress, BitVec.toNat_add, BitVec.toNat_mul, BitVec.toNat_setWidth, hmask, hfive]
  omega

/-- What an instruction can do, instruction by instruction. -/
theorem exec_effect (i : Instr) (s : State) : Effect i s (exec i s) := by
  cases i with
  | cls => exact .paints _ (.head _) rfl
  | ret =>
    rw [exec_ret]
    split
    · exact .report _ (by simp) (by simp [Instr.writes]) rfl
    · exact .returns rfl
  | jp nnn => exact .moves _ (.inl (by rw [addressOf_toNat]; omega)) (.head _) rfl
  | call nnn =>
    rw [exec_call]
    split
    · exact .report _ (by simp) (by simp [Instr.writes]) rfl
    · exact .calls nnn rfl ‹_›
  | seImm x nn => exact .of_skipIf _ (.head _) rfl
  | sneImm x nn => exact .of_skipIf _ (.head _) rfl
  | seReg x y => exact .of_skipIf _ (.head _) rfl
  | ldImm x nn => exact .writesReg x _ rfl (.head _) rfl
  | addImm x nn => exact .writesReg x _ rfl (.head _) rfl
  | ldReg x y => exact .writesReg x _ rfl (.head _) rfl
  | orReg x y => exact .writesReg x _ rfl (.head _) rfl
  | andReg x y => exact .writesReg x _ rfl (.head _) rfl
  | xorReg x y => exact .writesReg x _ rfl (.head _) rfl
  | addReg x y => exact .writesRegFlag x _ _ rfl (.head _) rfl
  | sub x y => exact .writesRegFlag x _ _ rfl (.head _) rfl
  | shr x y => exact .writesRegFlag x _ _ rfl (.head _) rfl
  | subn x y => exact .writesRegFlag x _ _ rfl (.head _) rfl
  | shl x y => exact .writesRegFlag x _ _ rfl (.head _) rfl
  | sneReg x y => exact .of_skipIf _ (.head _) rfl
  | ldI nnn => exact .writesI _ (fun _ => by rw [addressOf_toNat]; omega) (.head _) rfl
  | jpV0 nnn => exact .moves _ (.inl (by rw [offsetTarget_toNat]; omega)) (.head _) rfl
  | rnd x nn => exact .randomizes x nn _ rfl
  | drw x y n =>
    rw [exec_drw]
    refine .of_needBytes (fun h1 h2 => .inl ⟨h1, by omega, rfl⟩) fun hin => ?_
    split
    case isTrue h => exact .faults _ (.inr ⟨by omega, h.1, h.2, rfl⟩)
    case isFalse h => exact .draws x y n rfl
  | skp x => exact .of_skipIf _ (.head _) rfl
  | sknp x => exact .of_skipIf _ (.head _) rfl
  | ldVxDt x => exact .writesReg x _ rfl (.head _) rfl
  | ldVxK x =>
    cases h : s.lowestKey with
    | none =>
      rw [exec_ldVxK_of_none h]
      exact .moves _ (.inr (.inr rfl)) (by simp [Instr.writes]) rfl
    | some k =>
      rw [exec_ldVxK_of_some h]
      exact .writesReg x _ rfl (.head _) rfl
  | ldDtVx x => exact .writesDT x _ rfl
  | ldStVx x => exact .writesST x _ rfl
  | addI x => exact .writesIFlag x _ _ (by rw [BitVec.toNat_ofNat]; omega) rfl
  | ldF x =>
    refine .writesI _ (fun hwf => ?_) (.head _) rfl
    have hfont : s.cfg.fontBase.toNat + 80 ≤ 4096 := of_decide_eq_true hwf
    rw [glyphAddress_toNat hwf]
    omega
  | ldB x =>
    rw [exec_ldB]
    refine .of_needBytes (fun h1 h2 => ⟨by omega, rfl⟩) fun hin => .stores _ rfl ?_ (.head _) rfl
    exact hin.resolve_left (by omega)
  | storeRegs x =>
    rw [exec_storeRegs]
    refine .of_needBytes (fun h1 h2 => ⟨by omega, rfl⟩) fun hin => .stores _ (s.regsUpTo_length x) ?_ (.head _) rfl
    rw [State.regsUpTo_length]
    exact hin.resolve_left (by omega)
  | loadRegs x =>
    rw [exec_loadRegs]
    refine .of_needBytes (fun h1 h2 => ⟨by omega, rfl⟩) fun _ => .loads _ (fun r hr => ?_) (.head _) rfl
    exact (s.loadedRegs_getElem x r).trans (if_neg hr)
  | scd n => exact .paints _ (.head _) rfl
  | scr => exact .paints _ (.head _) rfl
  | exit => exact .report _ (by simp) (.head _) rfl
  | low => exact .setsMode _ (.head _) rfl
  | high => exact .setsMode _ (.head _) rfl
  | saveRpl x =>
    rw [exec_saveRpl]
    split
    · exact .report _ (by simp) (by simp [Instr.writes]) rfl
    · exact .saves x _ rfl
  | restoreRpl x =>
    rw [exec_restoreRpl]
    split
    · exact .report _ (by simp) (by simp [Instr.writes]) rfl
    · refine .loads _ (fun r hr => ?_) (.head _) rfl
      exact (tabulate_getElem_fin _ r).trans (if_neg hr)

/-- What an outcome of an instruction is known to be. -/
theorem effect_of_exec {i : Instr} {s : State} {r : Result} (h : exec i s = r) : Effect i s r := h ▸ exec_effect i s

end Sys2Proof.Machine
end

section
/-! PROOFS. The whole-machine statements (`10_state.md`, `60_exceptions.md`): what an instruction leaves alone, errors
and faults, the configuration. Each is read off `exec_effect`. -/

namespace Sys2Proof.Machine

/-! ## Frames -/

/-- A frame of one listed element is a frame of the whole list. -/
theorem Frame.of_mem {e : Elem} {l : List Elem} {s t : State} (h : Frame [e] s t) (he : e ∈ l) : Frame l s t :=
  h.mono (by simpa using he)

/-- A sprite changes the frame buffer and VF alone (R101). -/
theorem frame_drawn (s : State) (x y : Reg) (n : BitVec 4) : Frame [.V, .FB] s (s.drawn x y n) :=
  ((frame_setFB s _).of_mem (by simp)).trans ((frame_setFlag _ _).of_mem (by simp))

/-- An instruction that completes changes the elements of its list alone (R20). -/
theorem exec_frame {i : Instr} {s t : State} (h : exec i s = .next t) : Frame i.writes s t := by
  cases effect_of_exec h with
  | report e kind writes => exact (frame_setCycleResult s _).of_mem writes
  | moves v target writes => exact (frame_setPc s v).of_mem writes
  | stays => exact frame_refl _ s
  | returns isRet => exact isRet ▸ (frame_pop s).mono (by simp [Instr.writes])
  | calls nnn isCall =>
    rw [isCall]
    exact ((frame_push s _).mono (by simp [Instr.writes])).trans ((frame_setPc _ _).of_mem (by simp [Instr.writes]))
  | paints fb writes => exact (frame_setFB s fb).of_mem writes
  | draws x y n isDrw => exact isDrw ▸ frame_drawn s x y n
  | writesReg x v named writes => exact (frame_setReg s x v).of_mem writes
  | writesRegFlag x v b named writes => exact (frame_setRegFlag s x v b).of_mem writes
  | randomizes x nn v isRnd =>
    rw [isRnd]
    exact ((frame_setReg s x v).of_mem (by simp [Instr.writes])).trans
      ((frame_useDraw _).of_mem (by simp [Instr.writes]))
  | writesI v bound writes => exact (frame_setI s v).of_mem writes
  | writesIFlag x v b bound isAddI =>
    rw [isAddI]
    exact ((frame_setI s v).of_mem (by simp [Instr.writes])).trans ((frame_setFlag _ b).of_mem (by simp [Instr.writes]))
  | writesDT x v isLd => exact isLd ▸ frame_setDT s v
  | writesST x v isLd => exact isLd ▸ frame_setST s v
  | stores vs length inside writes => exact (frame_writeBytes s _ vs).of_mem writes
  | loads v others writes => exact (frame_setV s v).of_mem writes
  | saves x v isSave => exact isSave ▸ (frame_setRPL s v).of_mem (by simp [Instr.writes])
  | setsMode b writes => exact (frame_setHires s b).of_mem writes

/-- Bytes outside those an instruction stores read as before (R54). -/
theorem exec_readByte {i : Instr} {s t : State} (h : exec i s = .next t) {a : Nat}
    (ha : a < s.base ∨ s.base + i.storedBytes ≤ a) : t.readByte a = s.readByte a := by
  cases effect_of_exec h
  case stores vs length _ _ _ => exact s.readByte_writeBytes_of_outside _ _ vs (length ▸ ha)
  all_goals rfl

/-- Settles O16: an instruction's frame, and what its stores leave of memory. -/
theorem onlyListedElementsChange : Obligations.OnlyListedElementsChange :=
  fun _ _ _ h => ⟨exec_frame h, fun _ => exec_readByte h⟩

/-! ## Registers -/

/-- A flag-writing instruction leaves a flag's value in VF: the flag is its last write (R22, R142, D10). -/
theorem exec_reg_vf {i : Instr} {s t : State} (h : exec i s = .next t) (hf : i.writesFlag = true) :
    ∃ b, t.reg vf = flagByte b := by
  cases effect_of_exec h
  case draws => exact ⟨_, State.reg_setReg_self _ vf _⟩
  case writesRegFlag b _ _ _ => exact ⟨b, State.reg_setReg_self _ vf _⟩
  case writesIFlag b _ _ => exact ⟨b, State.reg_setReg_self _ vf _⟩
  all_goals simp_all [Instr.writesFlag]

/-- A register that is neither a named destination nor written as the flag is unchanged. -/
theorem exec_reg {i : Instr} {s t : State} (h : exec i s = .next t) {r : Reg} (hr : ¬ i.names r)
    (hvf : ¬ (i.writesFlag = true ∧ r = vf)) : t.reg r = s.reg r := by
  cases effect_of_exec h
  case writesReg x v named _ _ => exact s.reg_setReg_of_ne v fun hx => hr (hx ▸ named)
  case writesRegFlag x v b named _ flag =>
    exact regFrame_setRegFlag s x v b r (by
      simp only [List.mem_cons, List.not_mem_nil, or_false, not_or]
      exact ⟨fun hx => hr (hx ▸ named), fun h => hvf ⟨flag, h⟩⟩)
  case randomizes x nn v isRnd =>
    subst isRnd
    exact s.reg_setReg_of_ne v hr
  case draws x y n isDrw => exact State.reg_setReg_of_ne _ _ fun h => hvf ⟨isDrw ▸ rfl, h⟩
  case writesIFlag x v b _ isAddI => exact State.reg_setReg_of_ne _ _ fun h => hvf ⟨isAddI ▸ rfl, h⟩
  case loads v others _ _ => exact others r hr
  all_goals rfl

/-- Settles O17: the flag is the last write of the seven instructions, and the named destinations are the only other
register writes. -/
theorem flagAndDestinationRegisters : Obligations.FlagAndDestinationRegisters := by
  refine fun i s t h => ⟨fun hf => ?_, fun r hr hvf => exec_reg h hr hvf⟩
  obtain ⟨b, hb⟩ := exec_reg_vf h hf
  rw [hb]
  exact flagByte_zero_or_one b

/-! ## Errors -/

/-- An instruction that reports an error changes the cycle's result alone, and reports one of four kinds
(R240, R251). -/
theorem exec_error {i : Instr} {s t : State} {e : ErrorKind} (h : exec i s = .next t) (hok : s.cycleResult = .ok)
    (he : t.cycleResult = .err e) :
    t = s.setCycleResult (.err e) ∧
      e ∈ [.stackOverflow, .noSubroutineToExit, .programExited, .invalidRegisterReference] := by
  cases effect_of_exec h
  case report e' kind _ _ =>
    cases he
    exact ⟨rfl, kind⟩
  all_goals exact nomatch hok.symm.trans he

/-- Settles O18: an error of a cycle is the decoder's UnknownOpcode or one an instruction reports, and neither changes
anything but the cycle's result. -/
theorem errorsArePrecise : Obligations.ErrorsArePrecise := by
  intro s t e h he
  obtain ⟨-, ⟨i, -, hexec⟩ | ⟨-, rfl⟩⟩ := step_eq_next h
  · obtain ⟨rfl, hkind⟩ := exec_error hexec rfl he
    exact ⟨rfl, List.mem_cons_of_mem _ hkind⟩
  · cases he
    exact ⟨rfl, .head _⟩

/-! ## Faults and refusals -/

/-- A range outside its array ends the instruction in the fault (R249). -/
theorem exec_of_faultCause {i : Instr} {s : State} {f : Fault} (h : FaultCause i s f) : exec i s = .fault f := by
  cases i
  case drw x y n =>
    rw [exec_drw]
    rcases h with ⟨h1, h2, rfl⟩ | ⟨h1, h2, h3, rfl⟩
    · exact needBytes_of_outside h1 (by omega)
    · rw [needBytes_of_inside (by omega), if_pos ⟨h2, h3⟩]
  case ldB x =>
    obtain ⟨h1, rfl⟩ := h
    exact needBytes_of_outside (by omega) (by omega)
  case storeRegs x =>
    obtain ⟨h1, rfl⟩ := h
    exact needBytes_of_outside (by omega) (by omega)
  case loadRegs x =>
    obtain ⟨h1, rfl⟩ := h
    exact needBytes_of_outside (by omega) (by omega)
  all_goals exact h.elim

/-- An instruction faults exactly for the causes of R249. -/
theorem exec_eq_fault {i : Instr} {s : State} {f : Fault} : exec i s = .fault f ↔ FaultCause i s f := by
  refine ⟨fun h => ?_, exec_of_faultCause⟩
  cases effect_of_exec h with
  | faults f cause => exact cause

/-- No instruction is refused. -/
theorem exec_ne_refused (i : Instr) (s : State) (r : Refusal) : exec i s ≠ .refused r := by
  intro h
  cases effect_of_exec h

/-- The fetch changes nothing a fault depends on. -/
theorem faultCause_afterFetch {i : Instr} {s : State} {op : Word} {f : Fault} :
    FaultCause i (s.afterFetch op) f ↔ FaultCause i s f := by
  cases i <;> exact Iff.rfl

/-- Settles O19: a step faults in the fetch, or in the decoded instruction. -/
theorem stepFaultsExactly : Obligations.StepFaultsExactly := by
  intro s f
  rcases Nat.lt_or_ge 0x0FFE s.pc.toNat with hpc | hpc
  · rw [step_of_not_fetchable hpc]
    simp [hpc, Nat.not_le.mpr hpc, eq_comm]
  · cases hd : decode s.cfg.qSchip s.fetched with
    | none =>
      rw [step_of_unknown hpc hd]
      simp [Nat.not_lt.mpr hpc]
    | some i =>
      rw [step_of_decode hpc hd, exec_eq_fault, faultCause_afterFetch]
      simp [hpc, Nat.not_lt.mpr hpc]

/-- Settles O20: neither the fetch nor an instruction is refused. -/
theorem stepIsNeverRefused : Obligations.StepIsNeverRefused := by
  intro s r
  rcases Nat.lt_or_ge 0x0FFE s.pc.toNat with hpc | hpc
  · rw [step_of_not_fetchable hpc]
    nofun
  · cases hd : decode s.cfg.qSchip s.fetched with
    | none =>
      rw [step_of_unknown hpc hd]
      nofun
    | some i =>
      rw [step_of_decode hpc hd]
      exact exec_ne_refused i _ r

/-! ## The configuration -/

/-- No instruction writes the configuration. -/
theorem exec_cfg {i : Instr} {s t : State} (h : exec i s = .next t) : t.cfg = s.cfg :=
  exec_frame h .cfg (by cases i <;> simp [Instr.writes])

/-- No step writes the configuration (R5). -/
theorem step_cfg {s t : State} (h : step s = .next t) : t.cfg = s.cfg := by
  obtain ⟨-, ⟨i, -, hexec⟩ | ⟨-, rfl⟩⟩ := step_eq_next h
  · exact (exec_cfg hexec).trans (s.afterFetch_cfg _)
  · rfl

/-- What a host operation that answers can do to the state (R210). -/
theorem perform_eq_next {o : HostOp} {s t : State} {r : Reply} (h : perform o s = .next (t, r)) :
    step s = .next t ∨ (∃ rom : List Byte, rom.length ≤ romMax ∧ t = s.loaded rom) ∨
      (∃ v, t = s.setDT v) ∨ (∃ v, t = s.setST v) ∨ (∃ v, t = s.setKeys v) ∨ t = s := by
  have hkey : ∀ key down, setKey key down s = (t, r) → (∃ v, t = s.setKeys v) ∨ t = s := by
    intro key down hset
    unfold setKey at hset
    split at hset <;> cases hset
    · exact .inl ⟨_, rfl⟩
    · exact .inr rfl
  cases o with
  | load rom =>
    by_cases hlen : rom.length ≤ romMax
    · simp only [perform, load, if_pos hlen] at h
      cases h
      exact .inr (.inl ⟨rom, hlen, rfl⟩)
    · simp only [perform, load, if_neg hlen] at h
      cases h
  | cycle =>
    cases hs : step s with
    | next u =>
      simp only [perform, hs] at h
      cases h
      exact .inl rfl
    | fault f => simp only [perform, hs] at h; cases h
    | refused q => simp only [perform, hs] at h; cases h
  | tickDelayTimer => cases h; exact .inr (.inr (.inl ⟨_, rfl⟩))
  | tickSoundTimer => cases h; exact .inr (.inr (.inr (.inl ⟨_, rfl⟩)))
  | press key => exact .inr (.inr (.inr (.inr (hkey key true (Host.Outcome.next.inj h)))))
  | release key => exact .inr (.inr (.inr (.inr (hkey key false (Host.Outcome.next.inj h)))))
  | framebufferSnapshot => cases h; exact .inr (.inr (.inr (.inr (.inr rfl))))
  | currentOpcode => cases h; exact .inr (.inr (.inr (.inr (.inr rfl))))
  | programCounter => cases h; exact .inr (.inr (.inr (.inr (.inr rfl))))
  | disassembledProgram => cases h; exact .inr (.inr (.inr (.inr (.inr rfl))))

/-- No host operation writes the configuration (R5). -/
theorem perform_cfg {o : HostOp} {s t : State} {r : Reply} (h : perform o s = .next (t, r)) : t.cfg = s.cfg := by
  obtain hstep | ⟨rom, -, rfl⟩ | ⟨v, rfl⟩ | ⟨v, rfl⟩ | ⟨v, rfl⟩ | rfl := perform_eq_next h
  · exact step_cfg hstep
  all_goals rfl

/-- Settles O21: neither an instruction nor the fetch writes the configuration, and of the host operations only `load`
builds a state anew, from the same configuration. -/
theorem configurationIsConstant : Obligations.ConfigurationIsConstant :=
  ⟨fun _ _ => step_cfg, fun _ _ _ _ => perform_cfg⟩

end Sys2Proof.Machine
end

section
/-! PROOFS. The invariant (`10_state.md` R23, R24, R27, `20_memory.md` R51): it holds at reset, every instruction keeps
it, and so does every host operation and every run. -/

namespace Sys2Proof.Machine

/-! ## Keeping the invariant -/

/-- The invariant speaks of memory, the configuration, `I`, `pc` and the slots, and of nothing else. -/
theorem State.Inv.congr {s t : State} (h : s.Inv) (hmem : t.mem = s.mem) (hcfg : t.cfg = s.cfg) (hI : t.I = s.I)
    (hpc : t.pc = s.pc) (hslot : ∀ k, t.slot k = s.slot k) : t.Inv where
  mem := by rw [hmem, hcfg]; exact h.mem
  cfg := by rw [hcfg]; exact h.cfg
  I := by rw [hI]; exact h.I
  pc := by rw [hpc]; exact h.pc
  slots k := by rw [hslot]; exact h.slots k
  slot0 := by rw [hslot]; exact h.slot0

/-- Moving `pc` within its range keeps the invariant. -/
theorem State.Inv.setPc {s : State} (h : s.Inv) {v : Word} (hv : v.toNat ≤ 0x10FE) : (s.setPc v).Inv :=
  { h with pc := hv }

/-- Moving `I` within memory keeps the invariant. -/
theorem State.Inv.setI {s : State} (h : s.Inv) {v : Word} (hv : v.toNat ≤ 0x0FFF) : (s.setI v).Inv :=
  { h with I := hv }

/-- A return goes to an address a call pushed. -/
theorem State.Inv.pop {s : State} (h : s.Inv) : s.pop.Inv :=
  { h with pc := Nat.le_trans (h.slots s.sp) (by omega) }

/-- The pointer after a call with room on the stack. -/
theorem sp_add_one_ne_zero {k : Fin 16} (h : k ≠ 15) : k + 1 ≠ 0 := by
  revert k
  decide

/-- A call with room on the stack pushes above slot 0. -/
theorem State.Inv.push {s : State} (h : s.Inv) (hroom : s.sp ≠ 15) {v : Word} (hv : v.toNat ≤ 0x1000) :
    (s.push v).Inv :=
  { h with
    slots := fun k => by
      rw [State.slot_push]
      split
      · exact hv
      · exact h.slots k
    slot0 := by
      rw [State.slot_push, if_neg (sp_add_one_ne_zero hroom).symm]
      exact h.slot0 }

/-- Storing bytes inside memory keeps its canonical form. -/
theorem State.Inv.writeBytes {s : State} (h : s.Inv) {a : Nat} {vs : List Byte} (hin : a + vs.length ≤ 4096) :
    (s.writeBytes a vs).Inv :=
  { h with mem := Memory.wf_writeAll h.mem hin }

/-- An instruction keeps the invariant, executed with `pc` behind the two bytes it was fetched from. -/
theorem exec_keeps_inv {i : Instr} {s t : State} (h : exec i s = .next t) (hs : s.Inv) (hlo : 2 ≤ s.pc.toNat)
    (hhi : s.pc.toNat ≤ 0x1000) : t.Inv := by
  cases effect_of_exec h
  case moves v target _ _ =>
    refine hs.setPc ?_
    rcases target with hv | rfl | rfl
    · exact hv
    · bv_omega
    · bv_omega
  case returns => exact hs.pop
  case calls nnn _ room => exact (hs.push room hhi).setPc (by rw [addressOf_toNat]; omega)
  case writesI v bound _ _ => exact hs.setI (bound hs.cfg)
  case writesIFlag x v b bound _ => exact (hs.setI bound).congr rfl rfl rfl rfl fun _ => rfl
  case stores vs _ inside _ _ => exact hs.writeBytes inside
  all_goals exact hs.congr rfl rfl rfl rfl fun _ => rfl

/-- The fetch keeps the invariant. -/
theorem State.Inv.afterFetch {s : State} (h : s.Inv) (hpc : s.pc.toNat ≤ 0x0FFE) (op : Word) : (s.afterFetch op).Inv :=
  (h.setPc (v := s.pc + 2) (by bv_omega)).congr rfl rfl rfl rfl fun _ => rfl

/-- A step keeps the invariant. -/
theorem step_keeps_inv {s t : State} (hs : s.Inv) (h : step s = .next t) : t.Inv := by
  obtain ⟨hpc, ⟨i, -, hexec⟩ | ⟨-, rfl⟩⟩ := step_eq_next h
  · have hpc2 : (s.afterFetch s.fetched).pc.toNat = s.pc.toNat + 2 := by
      rw [State.afterFetch_pc]
      bv_omega
    exact exec_keeps_inv hexec (hs.afterFetch hpc _) (by omega) (by omega)
  · exact (hs.afterFetch hpc s.fetched).congr rfl rfl rfl rfl fun _ => rfl

/-- Settles O12: the fetch moves `pc` by 2 inside its range, and every instruction keeps the invariant. -/
theorem stepKeepsInvariant : Obligations.StepKeepsInvariant := fun _ _ => step_keeps_inv

/-! ## Reset, host operations, runs -/

/-- Power-on of a machine whose font lies inside memory satisfies the invariant. -/
theorem powerOn_inv {c : Config} (hc : c.wf = true) : (State.powerOn c).Inv where
  mem := Memory.wf_powerOn c
  cfg := hc
  I := Nat.zero_le _
  pc := by rw [State.powerOn_pc]; decide
  slots k := by rw [State.powerOn_slot]; decide
  slot0 := State.powerOn_slot c 0

/-- Settles O11: the standard font lies inside memory. -/
theorem resetSatisfiesInvariant : Obligations.ResetSatisfiesInvariant := powerOn_inv (by decide)

/-- Loading an admitted ROM leaves a state with the invariant: power-on, with the ROM inside memory (R211). -/
theorem State.Inv.loaded {s : State} (h : s.Inv) {rom : List Byte} (hlen : rom.length ≤ romMax) : (s.loaded rom).Inv :=
  have hin : progBase + rom.length ≤ 4096 := by
    simp only [progBase, romMax] at hlen ⊢
    omega
  ((powerOn_inv h.cfg).writeBytes hin).congr rfl rfl rfl rfl fun _ => rfl

/-- Every host operation keeps the invariant. -/
theorem perform_keeps_inv {o : HostOp} {s t : State} {r : Reply} (hs : s.Inv) (h : perform o s = .next (t, r)) :
    t.Inv := by
  obtain hstep | ⟨rom, hlen, rfl⟩ | ⟨v, rfl⟩ | ⟨v, rfl⟩ | ⟨v, rfl⟩ | rfl := perform_eq_next h
  · exact step_keeps_inv hs hstep
  · exact hs.loaded hlen
  · exact hs.congr rfl rfl rfl rfl fun _ => rfl
  · exact hs.congr rfl rfl rfl rfl fun _ => rfl
  · exact hs.congr rfl rfl rfl rfl fun _ => rfl
  · exact hs

/-- Settles O13: a host operation is a step, a load, or a write to an element the invariant does not speak of. -/
theorem hostOperationsKeepInvariant : Obligations.HostOperationsKeepInvariant := fun _ _ _ _ => perform_keeps_inv

/-- A run of at least one operation is that operation and then the run of the others (R221). -/
theorem runOps_cons_eq_next {o : HostOp} {rest : List HostOp} {s u : State} {rs : List Reply}
    (h : runOps (o :: rest) s = .next (u, rs)) :
    ∃ t r rs', perform o s = .next (t, r) ∧ runOps rest t = .next (u, rs') ∧ rs = r :: rs' := by
  cases hp : perform o s with
  | next p =>
    obtain ⟨t, r⟩ := p
    cases hr : runOps rest t with
    | next q =>
      simp only [runOps, hp, hr] at h
      cases h
      exact ⟨t, r, _, rfl, hr, rfl⟩
    | fault f => simp only [runOps, hp, hr] at h; cases h
    | refused q => simp only [runOps, hp, hr] at h; cases h
  | fault f => simp only [runOps, hp] at h; cases h
  | refused q => simp only [runOps, hp] at h; cases h

/-- Settles O14, by induction on the list of operations. -/
theorem everyRunKeepsInvariant : Obligations.EveryRunKeepsInvariant := by
  intro ops
  induction ops with
  | nil =>
    intro s t rs hs h
    cases h
    exact ⟨hs, rfl, rfl⟩
  | cons o rest ih =>
    intro s u rs hs h
    obtain ⟨t, r, rs', hp, hr, rfl⟩ := runOps_cons_eq_next h
    obtain ⟨hinv, hcfg, hlen⟩ := ih t u rs' (perform_keeps_inv hs hp) hr
    exact ⟨hinv, hcfg.trans (perform_cfg hp), congrArg (· + 1) hlen⟩

/-! ## The canonical form of memory -/

/-- The head of a canonical memory, and what is behind it. -/
theorem Memory.wfFrom_cons {c : Config} {lo a : Nat} {v : Byte} {rest : Memory} :
    Memory.wfFrom c lo ((a, v) :: rest) = true ↔
      lo ≤ a ∧ a < 4096 ∧ v ≠ initialByte c a ∧ Memory.wfFrom c (a + 1) rest = true := by
  simp [Memory.wfFrom, and_assoc]

/-- The listed byte at the head. -/
theorem Memory.read_cons_self (c : Config) (a : Nat) (v : Byte) (rest : Memory) :
    Memory.read c ((a, v) :: rest) a = v := by
  simp [Memory.read, Memory.find]

/-- Another address reads as if the head were not listed. -/
theorem Memory.read_cons_of_ne {c : Config} {a b : Nat} {v : Byte} {rest : Memory} (h : a ≠ b) :
    Memory.read c ((a, v) :: rest) b = Memory.read c rest b := by
  simp [Memory.read, Memory.find, h]

/-- Below its first cell, a canonical memory reads as after power-on. -/
theorem Memory.read_of_lt {c : Config} {lo a : Nat} {m : Memory} (h : Memory.wfFrom c lo m = true) (ha : a < lo) :
    Memory.read c m a = initialByte c a := by
  induction m generalizing lo with
  | nil => rfl
  | cons cell rest ih =>
    obtain ⟨b, w⟩ := cell
    obtain ⟨hlo, -, -, hrest⟩ := Memory.wfFrom_cons.mp h
    rw [Memory.read_cons_of_ne (by omega)]
    exact ih hrest (by omega)

/-- A memory whose first cell is at `a` reads differently there from one that begins behind `a`. -/
theorem Memory.read_cons_ne {c : Config} {a : Nat} {v : Byte} {rest m : Memory} (hv : v ≠ initialByte c a)
    (hm : Memory.wfFrom c (a + 1) m = true) : Memory.read c ((a, v) :: rest) a ≠ Memory.read c m a := by
  rw [Memory.read_cons_self, Memory.read_of_lt hm (Nat.lt_succ_self a)]
  exact hv

/-- Canonical memories with the same lower bound that read the same are equal. -/
theorem Memory.eq_of_read_eq {c : Config} {lo : Nat} {m m' : Memory} (h : Memory.wfFrom c lo m = true)
    (h' : Memory.wfFrom c lo m' = true) (heq : ∀ a, a < 4096 → Memory.read c m a = Memory.read c m' a) : m = m' := by
  induction m generalizing lo m' with
  | nil =>
    cases m' with
    | nil => rfl
    | cons cell' rest' =>
      obtain ⟨-, hb, hw, -⟩ := Memory.wfFrom_cons.mp h'
      exact absurd (heq _ hb).symm (Memory.read_cons_ne hw rfl)
  | cons cell rest ih =>
    obtain ⟨a, v⟩ := cell
    obtain ⟨hlo, ha, hv, hrest⟩ := Memory.wfFrom_cons.mp h
    cases m' with
    | nil => exact absurd (heq a ha) (Memory.read_cons_ne hv rfl)
    | cons cell' rest' =>
      obtain ⟨b, w⟩ := cell'
      obtain ⟨hlo', hb, hw, hrest'⟩ := Memory.wfFrom_cons.mp h'
      rcases lt_trichotomy a b with hlt | rfl | hgt
      · exact absurd (heq a ha) (Memory.read_cons_ne hv (Memory.wfFrom_cons.mpr ⟨hlt, hb, hw, hrest'⟩))
      · have hvw : v = w := by simpa [Memory.read_cons_self] using heq a ha
        rw [hvw, ih hrest hrest' fun x hx => ?_]
        by_cases hax : a = x
        · subst hax
          rw [Memory.read_of_lt hrest (Nat.lt_succ_self a), Memory.read_of_lt hrest' (Nat.lt_succ_self a)]
        · simpa [Memory.read_cons_of_ne hax] using heq x hx
      · exact absurd (heq b hb).symm (Memory.read_cons_ne hw (Memory.wfFrom_cons.mpr ⟨hgt, ha, hv, hrest⟩))

/-- Settles O15, by induction on one of the two lists: the heads are at the same address, since a listed byte differs
from what is read where none is listed. -/
theorem canonicalMemoriesAreEqual : Obligations.CanonicalMemoriesAreEqual :=
  fun _ _ _ h h' heq => Memory.eq_of_read_eq h h' heq

end Sys2Proof.Machine
end

section
/-! PROOFS. What no rule reads (`00_scope.md` R5, `10_state.md` R28, R31, R33), the bytes the next fetch reads
(`20_memory.md` R64), and the state after power-on (`10_state.md` R35). -/

namespace Sys2Proof.Machine

/-! ## The inert inputs -/

/-- `mapNext` passes a case distinction. -/
theorem mapNext_ite {α : Type} (f : α → α) (p : Prop) [Decidable p] (a b : Host.Outcome α Fault Refusal) :
    mapNext f (if p then a else b) = if p then mapNext f a else mapNext f b := apply_ite (mapNext f) p a b

/-- `mapNext` passes a range check. -/
theorem mapNext_needBytes (f : State → State) (a len : Nat) (k : Result) :
    mapNext f (needBytes a len k) = needBytes a len (mapNext f k) :=
  mapNext_ite f _ _ _

section
variable (a b c : Bool)

/-- A skip does not read the inert inputs. -/
theorem skipIf_withQuirks (p : Bool) (s : State) :
    skipIf p (s.withQuirks a b c) = mapNext (State.withQuirks a b c) (skipIf p s) := by
  cases p <;> rfl

/-- Storing bytes keeps the inert inputs and does not read them. -/
theorem writeBytes_withQuirks (s : State) (p : Nat) (vs : List Byte) :
    (s.withQuirks a b c).writeBytes p vs = (s.writeBytes p vs).withQuirks a b c := by
  simp only [State.writeBytes, Memory.writeAll_withQuirks]
  rfl

/-- No instruction reads the inert inputs (D11, D12, D13). -/
theorem exec_withQuirks (i : Instr) (s : State) :
    exec i (s.withQuirks a b c) = mapNext (State.withQuirks a b c) (exec i s) := by
  cases i
  case ret => rw [exec_ret, exec_ret, mapNext_ite]; rfl
  case call nnn => rw [exec_call, exec_call, mapNext_ite]; rfl
  case seImm | sneImm | seReg | sneReg | skp | sknp => exact skipIf_withQuirks a b c _ s
  case drw => rw [exec_drw, exec_drw, mapNext_needBytes, mapNext_ite]; rfl
  case ldVxK x =>
    cases h : s.lowestKey with
    | none => rw [exec_ldVxK_of_none h, exec_ldVxK_of_none (s := s.withQuirks a b c) h]; rfl
    | some k => rw [exec_ldVxK_of_some h, exec_ldVxK_of_some (s := s.withQuirks a b c) h]; rfl
  case ldB => rw [exec_ldB, exec_ldB, mapNext_needBytes, writeBytes_withQuirks]; rfl
  case storeRegs => rw [exec_storeRegs, exec_storeRegs, mapNext_needBytes, writeBytes_withQuirks]; rfl
  case loadRegs => rw [exec_loadRegs, exec_loadRegs, mapNext_needBytes]; rfl
  case saveRpl => rw [exec_saveRpl, exec_saveRpl, mapNext_ite]; rfl
  case restoreRpl => rw [exec_restoreRpl, exec_restoreRpl, mapNext_ite]; rfl
  all_goals rfl

/-- No step reads the inert inputs. -/
theorem step_withQuirks (s : State) : step (s.withQuirks a b c) = mapNext (State.withQuirks a b c) (step s) := by
  rcases Nat.lt_or_ge 0x0FFE s.pc.toNat with hpc | hpc
  · rw [step_of_not_fetchable hpc, step_of_not_fetchable (s := s.withQuirks a b c) hpc]
    rfl
  · cases hd : decode s.cfg.qSchip s.fetched with
    | none =>
      rw [step_of_unknown hpc hd, step_of_unknown (s := s.withQuirks a b c) hpc hd]
      rfl
    | some i =>
      rw [step_of_decode hpc hd, step_of_decode (s := s.withQuirks a b c) hpc hd, ← exec_withQuirks]
      rfl

/-- Pressing or releasing a key does not read the inert inputs. -/
theorem setKey_withQuirks (key : Byte) (down : Bool) (s : State) :
    setKey key down (s.withQuirks a b c) =
      ((setKey key down s).1.withQuirks a b c, (setKey key down s).2) := by
  unfold setKey
  split <;> rfl

/-- No host operation reads the inert inputs. -/
theorem perform_withQuirks (o : HostOp) (s : State) :
    perform o (s.withQuirks a b c) = mapNext (fun p => (p.1.withQuirks a b c, p.2)) (perform o s) := by
  cases o with
  | load rom =>
    by_cases hlen : rom.length ≤ romMax
    · simp only [perform, load, if_pos hlen, State.withQuirks_loaded]
      rfl
    · simp only [perform, load, if_neg hlen]
      rfl
  | cycle =>
    simp only [perform, step_withQuirks]
    cases step s <;> rfl
  | press key => exact congrArg Host.Outcome.next (setKey_withQuirks a b c key true s)
  | release key => exact congrArg Host.Outcome.next (setKey_withQuirks a b c key false s)
  | tickDelayTimer => rfl
  | tickSoundTimer => rfl
  | framebufferSnapshot => rfl
  | currentOpcode => rfl
  | programCounter => rfl
  | disassembledProgram => rfl

end

/-- Settles O22: no instruction, and so no step and no host operation, reads one of the three inputs. -/
theorem quirksAreInert : Obligations.QuirksAreInert :=
  fun a b c s => ⟨step_withQuirks a b c s, fun o => perform_withQuirks a b c o s⟩

/-! ## The elements no instruction reads -/

/-- A skip does not read `hires` or `ST`. -/
theorem skipIf_forgetInert (p : Bool) (s : State) :
    mapNext State.forgetInert (skipIf p s.forgetInert) = mapNext State.forgetInert (skipIf p s) := by
  cases p <;> rfl

/-- No instruction reads `hires` or `ST`: without them it ends the same, up to them. -/
theorem exec_forgetInert (i : Instr) (s : State) :
    mapNext State.forgetInert (exec i s.forgetInert) = mapNext State.forgetInert (exec i s) := by
  cases i
  case ret => rw [exec_ret, exec_ret, mapNext_ite, mapNext_ite]; rfl
  case call nnn => rw [exec_call, exec_call, mapNext_ite, mapNext_ite]; rfl
  case seImm | sneImm | seReg | sneReg | skp | sknp => exact skipIf_forgetInert _ s
  case drw => rw [exec_drw, exec_drw, mapNext_needBytes, mapNext_needBytes, mapNext_ite, mapNext_ite]; rfl
  case ldVxK x =>
    cases h : s.lowestKey with
    | none => rw [exec_ldVxK_of_none h, exec_ldVxK_of_none (s := s.forgetInert) h]; rfl
    | some k => rw [exec_ldVxK_of_some h, exec_ldVxK_of_some (s := s.forgetInert) h]; rfl
  case ldB => rw [exec_ldB, exec_ldB, mapNext_needBytes, mapNext_needBytes]; rfl
  case storeRegs => rw [exec_storeRegs, exec_storeRegs, mapNext_needBytes, mapNext_needBytes]; rfl
  case loadRegs => rw [exec_loadRegs, exec_loadRegs, mapNext_needBytes, mapNext_needBytes]; rfl
  case saveRpl => rw [exec_saveRpl, exec_saveRpl, mapNext_ite, mapNext_ite]; rfl
  case restoreRpl => rw [exec_restoreRpl, exec_restoreRpl, mapNext_ite, mapNext_ite]; rfl
  all_goals rfl

/-- The fetched opcode does not depend on the unread elements. -/
theorem State.forgetUnread_fetched (s : State) : s.forgetUnread.fetched = s.fetched := rfl

/-- The fetch overwrites `IR` and the latest cycle's result. -/
theorem State.forgetUnread_afterFetch (s : State) (op : Word) :
    s.forgetUnread.afterFetch op = (s.afterFetch op).forgetInert := rfl

/-- A step does not read `hires`, `ST`, `IR` or the latest cycle's result: the fetch overwrites the last two, and no
instruction reads the first two. -/
theorem step_forgetUnread (s : State) :
    mapNext State.forgetInert (step s.forgetUnread) = mapNext State.forgetInert (step s) := by
  rcases Nat.lt_or_ge 0x0FFE s.pc.toNat with hpc | hpc
  · rw [step_of_not_fetchable hpc, step_of_not_fetchable (s := s.forgetUnread) hpc]
    rfl
  · cases hd : decode s.cfg.qSchip s.fetched with
    | none =>
      rw [step_of_unknown hpc hd, step_of_unknown (s := s.forgetUnread) hpc hd, State.forgetUnread_fetched,
        State.forgetUnread_afterFetch]
      rfl
    | some i =>
      rw [step_of_decode hpc hd, step_of_decode (s := s.forgetUnread) hpc hd, State.forgetUnread_fetched,
        State.forgetUnread_afterFetch, exec_forgetInert]

/-- Settles O23: each of the two steps is, up to `hires` and `ST`, the step of the one state both become when the four
elements are forgotten. -/
theorem unreadStateHasNoInfluence : Obligations.UnreadStateHasNoInfluence := by
  intro s s' h
  rw [← step_forgetUnread s, h, step_forgetUnread s']

/-! ## The bytes the next fetch reads -/

/-- The `k`-th of the bytes stored at `a`, read back. -/
theorem State.readByte_writeBytes_of_getElem? {s : State} {a k : Nat} {vs : List Byte} {v : Byte}
    (h : vs[k]? = some v) :
    (s.writeBytes a vs).readByte (a + k) = v := by
  rw [State.readByte_writeBytes, if_pos (Nat.le_add_right a k), Nat.add_sub_cancel_left, h]
  rfl

/-- A byte an FX55 stores, read back (R154). -/
theorem readByte_storeRegs {s : State} {x r : Reg} (h : r ≤ x) :
    (s.writeBytes s.base (s.regsUpTo x)).readByte (s.base + r.val) = s.reg r :=
  State.readByte_writeBytes_of_getElem? (s.regsUpTo_getElem? x r h)

/-- Settles O24: the fetch reads the first two of the bytes FX55 stored. -/
theorem storedBytesAreFetchedNext : Obligations.StoredBytesAreFetchedNext := by
  intro x s t hx hpc h
  rw [exec_storeRegs, needBytes_eq_next] at h
  obtain ⟨-, hnext⟩ := h
  cases hnext
  have hbase : s.pc.toNat = s.base := congrArg BitVec.toNat hpc
  have h0 := readByte_storeRegs (s := s) (x := x) (r := 0) (Fin.zero_le x)
  have h1 := readByte_storeRegs (s := s) (x := x) (r := 1) (Fin.le_def.mpr hx)
  simp only [State.fetched, State.wordAt, State.writeBytes_pc, hbase]
  exact congrArg₂ joinBytes h0 h1

/-! ## Power-on -/

/-- The font after power-on (R51, R52). -/
theorem initialByte_font (c : Config) (k : Fin 80) : initialByte c (c.fontBase.toNat + k.val) = c.fontTable[k] := by
  simp [initialByte]

/-- Memory outside the font is zero after power-on (R51). -/
theorem initialByte_outside {c : Config} {a : Nat} (h : a < c.fontBase.toNat ∨ c.fontBase.toNat + 80 ≤ a) :
    initialByte c a = 0 := by
  unfold initialByte
  split
  · rw [Vector.getElem?_eq_none (by omega)]
    rfl
  · rfl

/-- No pixel is lit after power-on (R35). -/
theorem powerOn_pixel (c : Config) {x y : Nat} (hx : x < 64) (hy : y < 32) : (State.powerOn c).pixel x y = false := by
  rw [State.pixel, fbGet_of_lt _ (by omega)]
  simp

/-- Settles O8: element by element; memory lists no cell, so it reads as the font and zeros. -/
theorem powerOnValues : Obligations.PowerOnValues := by
  rintro c s rfl
  exact ⟨State.powerOn_reg c, rfl, rfl, State.powerOn_slot c, rfl, rfl, rfl, State.powerOn_keyDown c,
    fun _ _ => powerOn_pixel c, rfl, rfl, rfl, initialByte_font c, fun _ => initialByte_outside⟩

/-- Settles O9: the parameters of the standard configuration, and the first and the last byte of its font. -/
theorem resetIsStandardPowerOn : Obligations.ResetIsStandardPowerOn :=
  ⟨rfl, rfl, rfl, by decide, rfl, initialByte_font Config.standard 0, initialByte_font Config.standard 79⟩

/-- Settles O10: both bytes at 0x200 are zero, and 0x0000 is no instruction. -/
theorem firstCycleAfterPowerOn : Obligations.FirstCycleAfterPowerOn := by
  intro c hfont
  have hword : (State.powerOn c).fetched = 0 := by
    have h0 : initialByte c 0x200 = 0 := initialByte_outside (by omega)
    have h1 : initialByte c 0x201 = 0 := initialByte_outside (by omega)
    exact congrArg₂ joinBytes h0 h1
  have hill : decode c.qSchip (State.powerOn c).fetched = none := by
    rw [hword, decode_eq_none_iff_illegalWord]
    exact .inl (by simp)
  rw [step_of_unknown (s := State.powerOn c) (by rw [State.powerOn_pc]; decide) hill, hword]
  rfl

end Sys2Proof.Machine
end

section
/-! PROOFS. The control-flow statements about the call stack, the register skips and BNNN (`41_control_flow.md`). -/

namespace Sys2Proof.Machine

/-- The pointer above a stack that is not full. -/
theorem sp_add_one_val {k : Fin 16} (h : k ≠ 15) : (k + 1).val = k.val + 1 := by
  revert k
  decide

/-- The pointer below a stack that is not empty. -/
theorem sp_sub_one_val {k : Fin 16} (h : k ≠ 0) : (k - 1).val + 1 = k.val := by
  revert k
  decide

/-- A return from a stack that is not empty (R110). -/
theorem exec_ret_of_nonempty {s : State} (h : s.sp ≠ 0) : exec .ret s = .next s.pop := by
  rw [exec_ret, if_neg h]

/-- Settles O30: 00EE is the second row of the base table; its check precedes the pop. -/
theorem retPopsOrReports : Obligations.RetPopsOrReports := by
  refine ⟨encodedAs_of_mem_baseTable (List.mem_of_getElem? (i := 1) rfl), fun s => ⟨fun hsp => ?_, fun hsp => ?_⟩⟩
  · exact ⟨_, exec_ret_of_nonempty hsp, rfl, sp_sub_one_val hsp, frame_pop s⟩
  · exact (exec_ret s).trans (if_pos hsp)

/-- A call with room on the stack (R112). -/
theorem exec_call_of_room (nnn : BitVec 12) {s : State} (h : s.sp ≠ 15) :
    exec (.call nnn) s = .next ((s.push s.pc).setPc (addressOf nnn)) := by
  rw [exec_call, if_neg h]

/-- A call writes `pc`, `sp` and a slot alone. -/
theorem frame_call (s : State) (v w : Word) : Frame [.pc, .sp, .stack] s ((s.push v).setPc w) :=
  ((frame_push s v).mono (by simp)).trans ((frame_setPc _ w).of_mem (by simp))

/-- Settles O31: 2NNN is the fourth row of the base table; its check precedes the push. -/
theorem callPushesOrReports : Obligations.CallPushesOrReports := by
  refine ⟨encodedAs_of_mem_baseTable (List.mem_of_getElem? (i := 3) rfl), fun nnn s => ⟨fun hsp => ?_, fun hsp => ?_⟩⟩
  · refine ⟨_, exec_call_of_room nnn hsp, addressOf_toNat nnn, sp_add_one_val hsp, ?_, fun k hk => ?_, frame_call s _ _⟩
    · exact (s.slot_push s.pc _).trans (if_pos rfl)
    · exact (s.slot_push s.pc k).trans (if_neg hk)
  · exact (exec_call nnn s).trans (if_pos hsp)

/-- Settles O32: the return pops the slot the call pushed. -/
theorem retUndoesCall : Obligations.RetUndoesCall := by
  intro nnn s hsp
  have hslot : ((s.push s.pc).setPc (addressOf nnn)).slot (s.sp + 1) = s.pc :=
    (s.slot_push s.pc _).trans (if_pos rfl)
  have hback : s.sp + 1 - 1 = s.sp := add_sub_cancel_right s.sp 1
  refine ⟨_, _, exec_call_of_room nnn hsp, exec_ret_of_nonempty (sp_add_one_ne_zero hsp), hslot, hback, ?_⟩
  intro e he
  cases e
  case stack => exact absurd (List.mem_singleton_self _) he
  case pc => exact hslot
  case sp => exact hback
  all_goals simp [Elem.same]

/-- The bottom nibble, as a number. -/
theorem fieldN_toNat (op : Word) : (fieldN op).toNat = op.toNat % 16 := BitVec.extractLsb'_toNat 0 4 op

/-- The meaning of 5XY0 (R115). -/
theorem exec_seReg (x y : Reg) (s : State) : exec (.seReg x y) s = skipIf (s.reg x == s.reg y) s := rfl

/-- The meaning of 9XY0 (R116). -/
theorem exec_sneReg (x y : Reg) (s : State) : exec (.sneReg x y) s = skipIf (s.reg x != s.reg y) s := rfl

/-- Settles O34: 5XY0 and 9XY0 are the seventh and nineteenth rows of the base table, both are the conditional skip, and
their words with another bottom nibble are in the groups (b) and (d) of the illegal words. -/
theorem skipsOnRegister : Obligations.SkipsOnRegister := by
  refine ⟨encodedAs_of_mem_baseTable (List.mem_of_getElem? (i := 6) rfl),
    encodedAs_of_mem_baseTable (List.mem_of_getElem? (i := 18) rfl), fun schip op htop hn => ?_, fun x y s => ⟨?_, ?_⟩⟩
  · have hlow : op.toNat % 16 ≠ 0 := fun h0 => hn (BitVec.eq_of_toNat_eq ((fieldN_toNat op).trans h0))
    rw [decode_eq_none_iff_illegalWord]
    rcases htop with h5 | h9
    · exact .inr (.inl ⟨(and_F000_iff (by decide)).mp h5, hlow⟩)
    · exact .inr (.inr (.inr (.inl ⟨(and_F000_iff (by decide)).mp h9, hlow⟩)))
  · simpa using completes_of_exec_eq_skipIf (exec_seReg x y s)
  · simpa using completes_of_exec_eq_skipIf (exec_sneReg x y s)

/-- The meaning of BNNN (R117). -/
theorem exec_jpV0 (nnn : BitVec 12) (s : State) : exec (.jpV0 nnn) s = .next (s.setPc (offsetTarget nnn (s.reg 0))) :=
  rfl

/-- Settles O35: BNNN is the twenty-first row of the base table, and its sum never wraps. -/
theorem jpV0AddsV0 : Obligations.JpV0AddsV0 :=
  ⟨encodedAs_of_mem_baseTable (List.mem_of_getElem? (i := 20) rfl),
    fun nnn s => ⟨_, exec_jpV0 nnn s, offsetTarget_toNat nnn (s.reg 0), frame_setPc s _⟩⟩

end Sys2Proof.Machine
end

section
/-! PROOFS. The statements about the flag-writing instructions of group 8 and about CXNN (`42_alu.md`). -/

namespace Sys2Proof.Machine

/-- A decided flag's value. -/
theorem flagByte_decide (p : Prop) [Decidable p] : flagByte (decide p) = if p then 1 else 0 := by
  by_cases h : p <;> simp [flagByte, h]

/-- A flag's value as a number. -/
theorem flagByte_toNat (b : Bool) : (flagByte b).toNat = b.toNat := by
  cases b <;> rfl

/-- An instruction whose meaning is to write `v` to `V[x]` and then a flag completes and changes nothing else; in VF the
flag stays (R142, D10). -/
theorem completes_of_exec_eq_setRegFlag {i : Instr} {s : State} {x : Reg} {v : Byte} {b : Bool} {P Q : Byte → Prop}
    (h : exec i s = .next (s.setRegFlag x v b)) (hv : P v) (hb : Q (flagByte b)) :
    Completes i s fun t => (x ≠ vf → P (t.reg x)) ∧ Q (t.reg vf) ∧ RegFrame [x, vf] s t ∧ Frame [.V] s t := by
  refine ⟨_, h, fun hx => ?_, ?_, regFrame_setRegFlag s x v b, frame_setRegFlag s x v b⟩
  · rw [State.reg_setRegFlag, if_neg hx, if_pos rfl]
    exact hv
  · rw [State.reg_setRegFlag, if_pos rfl]
    exact hb

/-- The meaning of 8XY4 (R136). -/
theorem exec_addReg (x y : Reg) (s : State) :
    exec (.addReg x y) s = .next (s.setRegFlag x (s.reg x + s.reg y) (carryOut (s.reg x) (s.reg y))) := rfl

/-- The meaning of 8XY5 (R137). -/
theorem exec_sub (x y : Reg) (s : State) :
    exec (.sub x y) s = .next (s.setRegFlag x (s.reg x - s.reg y) (noBorrow (s.reg x) (s.reg y))) := rfl

/-- The meaning of 8XY6 (R138). -/
theorem exec_shr (x y : Reg) (s : State) :
    exec (.shr x y) s = .next (s.setRegFlag x (s.reg y >>> 1) (shiftedOutRight (s.reg y))) := rfl

/-- The meaning of 8XY7 (R139). -/
theorem exec_subn (x y : Reg) (s : State) :
    exec (.subn x y) s = .next (s.setRegFlag x (s.reg y - s.reg x) (noBorrow (s.reg y) (s.reg x))) := rfl

/-- The meaning of 8XYE (R140). -/
theorem exec_shl (x y : Reg) (s : State) :
    exec (.shl x y) s = .next (s.setRegFlag x (s.reg y <<< 1) (shiftedOutLeft (s.reg y))) := rfl

/-- The meaning of CXNN (R141, R223). -/
theorem exec_rnd (x : Reg) (nn : Byte) (s : State) :
    exec (.rnd x nn) s = .next (s.setReg x (Config.rand8 s.draws &&& nn)).useDraw := rfl

/-- The carry as VF holds it. -/
theorem flagByte_carryOut (a b : Byte) : flagByte (carryOut a b) = if 255 < a.toNat + b.toNat then 1 else 0 :=
  flagByte_decide _

/-- The no-borrow flag as VF holds it. -/
theorem flagByte_noBorrow (a b : Byte) : flagByte (noBorrow a b) = if b.toNat ≤ a.toNat then 1 else 0 :=
  flagByte_decide _

/-- Settles O38: 8XY4 is the fourteenth row of the base table; the carry is the sum's overflow. -/
theorem addSetsCarry : Obligations.AddSetsCarry :=
  ⟨encodedAs_of_mem_baseTable (List.mem_of_getElem? (i := 13) rfl), fun x y s =>
    completes_of_exec_eq_setRegFlag (P := fun v => v.toNat = ((s.reg x).toNat + (s.reg y).toNat) % 256)
      (Q := fun f => f = if 255 < (s.reg x).toNat + (s.reg y).toNat then 1 else 0)
      (exec_addReg x y s) (BitVec.toNat_add _ _) (flagByte_carryOut _ _)⟩

/-- A difference of bytes is the integers' difference modulo 256. -/
theorem byte_sub_toInt (a b : Byte) : ((a - b).toNat : Int) = (a.toNat - b.toNat : Int) % 256 := by
  have hb := b.isLt
  rw [BitVec.toNat_sub]
  omega

/-- Settles O39: 8XY5 and 8XY7 are the fifteenth and seventeenth rows of the base table. -/
theorem subtractionsSetNoBorrow : Obligations.SubtractionsSetNoBorrow :=
  ⟨encodedAs_of_mem_baseTable (List.mem_of_getElem? (i := 14) rfl),
    encodedAs_of_mem_baseTable (List.mem_of_getElem? (i := 16) rfl), fun x y s =>
    ⟨completes_of_exec_eq_setRegFlag
        (P := fun v => (v.toNat : Int) = ((s.reg x).toNat - (s.reg y).toNat : Int) % 256)
        (Q := fun f => f = if (s.reg y).toNat ≤ (s.reg x).toNat then 1 else 0)
        (exec_sub x y s) (byte_sub_toInt _ _) (flagByte_noBorrow _ _),
      completes_of_exec_eq_setRegFlag
        (P := fun v => (v.toNat : Int) = ((s.reg y).toNat - (s.reg x).toNat : Int) % 256)
        (Q := fun f => f = if (s.reg x).toNat ≤ (s.reg y).toNat then 1 else 0)
        (exec_subn x y s) (byte_sub_toInt _ _) (flagByte_noBorrow _ _)⟩⟩

/-- The bit a right shift by one drops, as a number. -/
theorem shiftedOutRight_toNat (b : Byte) : (flagByte (shiftedOutRight b)).toNat = b.toNat % 2 := by
  rw [flagByte_toNat, shiftedOutRight, ← BitVec.testBit_toNat, Nat.toNat_testBit]
  omega

/-- The bit a left shift by one drops, as a number. -/
theorem shiftedOutLeft_toNat (b : Byte) : (flagByte (shiftedOutLeft b)).toNat = b.toNat / 128 := by
  have hb := b.isLt
  rw [flagByte_toNat, shiftedOutLeft, ← BitVec.testBit_toNat, Nat.toNat_testBit]
  omega

/-- A byte shifted right by one. -/
theorem byte_shiftRight_one (b : Byte) : (b >>> 1).toNat = b.toNat / 2 := by
  rw [BitVec.toNat_ushiftRight, Nat.shiftRight_eq_div_pow]

/-- A byte shifted left by one. -/
theorem byte_shiftLeft_one (b : Byte) : (b <<< 1).toNat = b.toNat * 2 % 256 := by
  rw [BitVec.toNat_shiftLeft, Nat.shiftLeft_eq]

/-- Settles O40: 8XY6 and 8XYE are the sixteenth and eighteenth rows of the base table. -/
theorem shiftsMoveVyByOne : Obligations.ShiftsMoveVyByOne :=
  ⟨encodedAs_of_mem_baseTable (List.mem_of_getElem? (i := 15) rfl),
    encodedAs_of_mem_baseTable (List.mem_of_getElem? (i := 17) rfl), fun x y s =>
    ⟨completes_of_exec_eq_setRegFlag (P := fun v => v.toNat = (s.reg y).toNat / 2)
        (Q := fun f => f.toNat = (s.reg y).toNat % 2)
        (exec_shr x y s) (byte_shiftRight_one _) (shiftedOutRight_toNat _),
      completes_of_exec_eq_setRegFlag (P := fun v => v.toNat = (s.reg y).toNat * 2 % 256)
        (Q := fun f => f.toNat = (s.reg y).toNat / 128)
        (exec_shl x y s) (byte_shiftLeft_one _) (shiftedOutLeft_toNat _)⟩⟩

/-- Settles O41: CXNN is the twenty-second row of the base table; its mask is read bit by bit, whatever the draw is. -/
theorem rndMasksOneDraw : Obligations.RndMasksOneDraw := by
  refine ⟨encodedAs_of_mem_baseTable (List.mem_of_getElem? (i := 21) rfl), fun x nn s =>
    ⟨_, exec_rnd x nn s, fun k _ => ?_, rfl, regFrame_setReg s x _, ?_⟩⟩
  · rw [State.useDraw_reg, State.reg_setReg_self, BitVec.getLsbD_and]
  · exact ((frame_setReg s x _).of_mem (by simp)).trans ((frame_useDraw _).of_mem (by simp))

end Sys2Proof.Machine
end

section
/-! PROOFS. The index and memory statements (`43_index_memory.md`). -/

namespace Sys2Proof.Machine

/-- The meaning of FX1E (R151). -/
theorem exec_addI (x : Reg) (s : State) :
    exec (.addI x) s = .next ((s.setI (BitVec.ofNat 16 ((s.I.toNat + (s.reg x).toNat) % 4096))).setFlag
      (crossesMemory s.I (s.reg x))) := rfl

/-- Settles O43: FX1E is the thirtieth row of the base table; a sum modulo 4096 fits the index register. -/
theorem addIndexWrapsAt4096 : Obligations.AddIndexWrapsAt4096 := by
  refine ⟨encodedAs_of_mem_baseTable (List.mem_of_getElem? (i := 29) rfl), fun x s =>
    ⟨_, exec_addI x s, ?_, ?_, regFrame_setReg _ vf _, ?_⟩⟩
  · rw [State.setFlag_I, State.setI_I, BitVec.toNat_ofNat]
    omega
  · rw [State.reg_setFlag, if_pos rfl]
    exact flagByte_decide _
  · exact ((frame_setI s _).of_mem (by simp)).trans ((frame_setFlag _ _).of_mem (by simp))

/-- The meaning of FX29 (R152). -/
theorem exec_ldF (x : Reg) (s : State) : exec (.ldF x) s = .next (s.setI (glyphAddress s.cfg (s.reg x))) := rfl

/-- Settles O44: FX29 is the thirty-first row of the base table; the glyph's address does not wrap. -/
theorem ldFontPointsAtGlyph : Obligations.LdFontPointsAtGlyph :=
  ⟨encodedAs_of_mem_baseTable (List.mem_of_getElem? (i := 30) rfl), fun x s hwf =>
    ⟨_, exec_ldF x s, glyphAddress_toNat hwf (s.reg x), frame_setI s _⟩⟩

/-- The decimal digits of a byte, as numbers (R153). -/
theorem decimalDigits_toNat (v : Byte) :
    (decimalDigits v).map BitVec.toNat = [v.toNat / 100, v.toNat / 10 % 10, v.toNat % 10] := by
  have hv := v.isLt
  simp only [decimalDigits, List.map_cons, List.map_nil, BitVec.toNat_ofNat]
  congr 1
  · omega
  · congr 1
    · omega
    · congr 1
      omega

/-- Settles O45: FX33 is the thirty-second row of the base table; the range check precedes the store. -/
theorem bcdStoresDigits : Obligations.BcdStoresDigits := by
  refine ⟨encodedAs_of_mem_baseTable (List.mem_of_getElem? (i := 31) rfl), fun x s => ⟨fun hin => ?_, fun hout => ?_⟩⟩
  · have hexec : exec (.ldB x) s = .next (s.writeBytes s.base (decimalDigits (s.reg x))) :=
      needBytes_of_inside (.inr (by simp only [State.base]; omega))
    have hdigit : ∀ (k n : Nat), [(s.reg x).toNat / 100, (s.reg x).toNat / 10 % 10, (s.reg x).toNat % 10][k]? = some n →
        ((s.writeBytes s.base (decimalDigits (s.reg x))).readByte (s.base + k)).toNat = n := by
      intro k n hk
      rw [← decimalDigits_toNat, List.getElem?_map, Option.map_eq_some_iff] at hk
      obtain ⟨v, hv, rfl⟩ := hk
      rw [State.readByte_writeBytes_of_getElem? hv]
    exact ⟨_, hexec, hdigit 0 _ rfl, hdigit 1 _ rfl, hdigit 2 _ rfl,
      fun a ha => s.readByte_writeBytes_of_outside _ a _ ha, frame_writeBytes s _ _⟩
  · exact exec_of_faultCause ⟨hout, rfl⟩

/-- Settles O46: FX55 is the thirty-third row of the base table; the range check precedes the store. -/
theorem blockStoreCopiesRegisters : Obligations.BlockStoreCopiesRegisters := by
  refine ⟨encodedAs_of_mem_baseTable (List.mem_of_getElem? (i := 32) rfl), fun x s => ⟨fun hin => ?_, fun hout => ?_⟩⟩
  · have hexec : exec (.storeRegs x) s = .next (s.writeBytes s.base (s.regsUpTo x)) :=
      needBytes_of_inside (.inr (by simp only [State.base]; omega))
    refine ⟨_, hexec, fun r hr => readByte_storeRegs hr, fun a ha => ?_, frame_writeBytes s _ _⟩
    refine s.readByte_writeBytes_of_outside _ a _ ?_
    rw [State.regsUpTo_length]
    exact ha
  · exact exec_of_faultCause ⟨hout, rfl⟩

/-- Settles O47: FX65 is the thirty-fourth row of the base table; the range check precedes the register writes. -/
theorem blockLoadFillsRegisters : Obligations.BlockLoadFillsRegisters := by
  refine ⟨encodedAs_of_mem_baseTable (List.mem_of_getElem? (i := 33) rfl), fun x s => ⟨fun hin => ?_, fun hout => ?_⟩⟩
  · have hexec : exec (.loadRegs x) s = .next (s.setV (s.loadedRegs x)) :=
      needBytes_of_inside (.inr (by simp only [State.base]; omega))
    refine ⟨_, hexec, fun r hr => ?_, fun r hr => ?_, frame_setV s _⟩
    · exact (s.loadedRegs_getElem x r).trans (if_pos hr)
    · exact (s.loadedRegs_getElem x r).trans (if_neg (not_le.mpr hr))
  · exact exec_of_faultCause ⟨hout, rfl⟩

end Sys2Proof.Machine
end

section
/-! PROOFS. The statements about the timers and the key wait (`44_keypad_timers.md`). -/

namespace Sys2Proof.Machine

/-- The meaning of FX07 (R172). -/
theorem exec_ldVxDt (x : Reg) (s : State) : exec (.ldVxDt x) s = .next (s.setReg x s.DT) := rfl

/-- The meaning of FX15 (R174). -/
theorem exec_ldDtVx (x : Reg) (s : State) : exec (.ldDtVx x) s = .next (s.setDT (s.reg x)) := rfl

/-- The meaning of FX18 (R175). -/
theorem exec_ldStVx (x : Reg) (s : State) : exec (.ldStVx x) s = .next (s.setST (s.reg x)) := rfl

/-- Settles O49: FX07, FX15 and FX18 are the twenty-sixth, twenty-eighth and twenty-ninth rows of the base table. -/
theorem timerMoves : Obligations.TimerMoves :=
  ⟨encodedAs_of_mem_baseTable (List.mem_of_getElem? (i := 25) rfl),
    encodedAs_of_mem_baseTable (List.mem_of_getElem? (i := 27) rfl),
    encodedAs_of_mem_baseTable (List.mem_of_getElem? (i := 28) rfl), fun x s =>
    ⟨completes_of_exec_eq_setReg (exec_ldVxDt x s) (s.reg_setReg_self x s.DT),
      ⟨_, exec_ldDtVx x s, rfl, frame_setDT s _⟩, ⟨_, exec_ldStVx x s, rfl, frame_setST s _⟩⟩⟩

/-- The lowest key down is found (R173). -/
theorem State.lowestKey_eq_some {s : State} {k : Fin 16} (hk : s.keyDown k = true)
    (hlow : ∀ j, j < k → s.keyDown j = false) : s.lowestKey = some k := by
  rw [State.lowestKey, List.find?_eq_some_iff_getElem]
  refine ⟨hk, k.val, by simp, by simp, fun j hj => ?_⟩
  rw [List.getElem_finRange, hlow _ hj]
  rfl

/-- With no key down none is found. -/
theorem State.lowestKey_eq_none {s : State} (h : ∀ k, s.keyDown k = false) : s.lowestKey = none := by
  simp [State.lowestKey, h]

/-- A key number as a register holds it. -/
theorem keyByte_toNat (k : Fin 16) : (keyByte k).toNat = k.val := by
  have hk := k.isLt
  rw [keyByte, BitVec.toNat_ofNat]
  omega

/-- Settles O50: FX0A is the twenty-seventh row of the base table; the keys are searched from 0 on. -/
theorem keyWait : Obligations.KeyWait := by
  refine ⟨encodedAs_of_mem_baseTable (List.mem_of_getElem? (i := 26) rfl), fun x s =>
    ⟨fun k hk hlow => ?_, fun h => ?_⟩⟩
  · refine completes_of_exec_eq_setReg (exec_ldVxK_of_some (State.lowestKey_eq_some hk hlow)) ?_
    rw [State.reg_setReg_self, keyByte_toNat]
  · exact ⟨_, exec_ldVxK_of_none (State.lowestKey_eq_none h), BitVec.sub_add_cancel s.pc 2, frame_setPc s _⟩

/-- Settles O51: the fetch moves `pc` on by 2, and the waiting FX0A moves it back. -/
theorem keyWaitCycleStaysPut : Obligations.KeyWaitCycleStaysPut := by
  intro x s hpc hfetch hkeys
  have hd : decode s.cfg.qSchip s.fetched = some (.ldVxK x) := by
    rw [hfetch]
    exact decode_encode_of_base rfl _
  have hwait : (s.afterFetch s.fetched).lowestKey = none := State.lowestKey_eq_none hkeys
  have hback : s.pc + 2 - 2 = s.pc := BitVec.add_sub_cancel s.pc 2
  rw [step_of_decode hpc hd, exec_ldVxK_of_none hwait, State.afterFetch_pc, hback, hfetch]
  rfl

end Sys2Proof.Machine
end

section
/-! PROOFS. The SUPER-CHIP statements about modes, the exit and the RPL cells (`45_superchip.md`). -/

namespace Sys2Proof.Machine

/-- A row of the SUPER-CHIP table is an encoding with `Q_SCHIP` true, and its words are illegal otherwise
(R76, R197). -/
theorem encodedAsSchip_of_mem_schipTable {mask value : Word} {build : Word → Instr}
    (hr : (⟨mask, value, build⟩ : Row) ∈ schipTable) : EncodedAsSchip mask value build :=
  fun _ hm => decode_of_schip_row hr (beq_iff_eq.mpr hm)

/-- The meaning of 00FE (R193). -/
theorem exec_low (s : State) : exec .low s = .next (s.setHires false) := rfl

/-- The meaning of 00FF (R194). -/
theorem exec_high (s : State) : exec .high s = .next (s.setHires true) := rfl

/-- Settles O54: 00FD, 00FE and 00FF are the third to fifth rows of the SUPER-CHIP table. -/
theorem exitLowHigh : Obligations.ExitLowHigh :=
  ⟨encodedAsSchip_of_mem_schipTable (List.mem_of_getElem? (i := 2) rfl),
    encodedAsSchip_of_mem_schipTable (List.mem_of_getElem? (i := 3) rfl),
    encodedAsSchip_of_mem_schipTable (List.mem_of_getElem? (i := 4) rfl), fun s =>
    ⟨rfl, ⟨_, exec_low s, rfl, frame_setHires s false⟩, ⟨_, exec_high s, rfl, frame_setHires s true⟩⟩⟩

/-- Settles O55: FX75 and FX85 are the last two rows of the SUPER-CHIP table; the check precedes the copy. -/
theorem rplSaveAndRestore : Obligations.RplSaveAndRestore := by
  refine ⟨encodedAsSchip_of_mem_schipTable (List.mem_of_getElem? (i := 5) rfl),
    encodedAsSchip_of_mem_schipTable (List.mem_of_getElem? (i := 6) rfl), fun x s =>
    ⟨fun hx => ⟨?_, ?_⟩, fun hx => ⟨?_, ?_⟩⟩⟩
  · refine ⟨_, (exec_saveRpl x s).trans (if_neg (not_lt.mpr hx)), fun k => ?_, frame_setRPL s _⟩
    exact tabulate_getElem_fin _ k
  · refine ⟨_, (exec_restoreRpl x s).trans (if_neg (not_lt.mpr hx)), fun k hk => ?_, fun r hr => ?_, frame_setV s _⟩
    · refine (tabulate_getElem_fin _ _).trans ((if_pos hk).trans ?_)
      simp
    · exact (tabulate_getElem_fin _ r).trans (if_neg (not_le.mpr hr))
  · exact (exec_saveRpl x s).trans (if_pos hx)
  · exact (exec_restoreRpl x s).trans (if_pos hx)

end Sys2Proof.Machine
end

section
/-! PROOFS. The statements about the host operations (`50_host_interface.md`). -/

namespace Sys2Proof.Machine

/-- After a load every element but memory, RPL and the count of draws has its power-on value (R211, R35). -/
theorem frame_loaded (s : State) (rom : List Byte) :
    Frame [.mem, .RPL, .draws] (State.powerOn s.cfg) (s.loaded rom) := by
  intro e he
  cases e
  case mem => simp at he
  case RPL => simp at he
  case draws => simp at he
  case V => exact fun _ => rfl
  case stack => exact fun _ => rfl
  case keys => exact fun _ => rfl
  all_goals rfl

/-- Memory after a load is memory after power-on with the ROM stored at 0x200 (R211). -/
theorem loaded_readByte (s : State) (rom : List Byte) (a : Nat) :
    (s.loaded rom).readByte a = ((State.powerOn s.cfg).writeBytes 0x200 rom).readByte a := rfl

/-- Settles O56: the ROM is stored over a memory that is as after power-on. -/
theorem loadRebuildsTheMachine : Obligations.LoadRebuildsTheMachine := by
  refine fun rom s => ⟨fun hlen =>
      ⟨s.loaded rom, if_pos hlen, fun k hk => ?_, fun a ha => ?_, rfl, rfl, frame_loaded s rom⟩,
    fun hlen => if_neg (not_le.mpr hlen)⟩
  · rw [loaded_readByte, State.readByte_writeBytes_of_getElem? (List.getElem?_eq_getElem hk)]
  · rw [loaded_readByte]
    exact State.readByte_writeBytes_of_outside _ _ a rom ha

/-- What the host's sound-timer tick does and returns (R214). -/
theorem perform_tickSoundTimer (s : State) :
    perform .tickSoundTimer s = .next (s.setST (ticked s.ST), .beep s.beeps) := rfl

/-- A beep sounds exactly while the sound timer runs (R214, D22). -/
theorem State.beeps_eq_true {s : State} : s.beeps = true ↔ 0 < s.ST.toNat := by
  rw [State.beeps, bne_iff_ne, Nat.pos_iff_ne_zero, ne_eq, ne_eq, BitVec.toNat_eq]
  rfl

/-- Settles O58: the operation writes the ticked value to `ST` alone and returns whether it ran. (`tickSoundTimer`
itself names the model's operation.) -/
theorem tickSoundTimer_beeps_and_decrements : Obligations.TickSoundTimer := by
  refine fun s => ⟨_, _, perform_tickSoundTimer s, State.beeps_eq_true, ticked_toNat_add_one, fun hzero => ?_,
    frame_setST s _⟩
  have hST : s.ST = 0 := BitVec.eq_of_toNat_eq hzero
  rw [State.setST_ST, hST, ticked_zero]

/-- A key number below 16 names a key (R215, R216). -/
theorem setKey_of_lt {key : Byte} {k : Fin 16} (h : key.toNat = k.val) (down : Bool) (s : State) :
    setKey key down s = (s.setKeys (s.keys.set k down), .ok) := by
  simp [setKey, h]

/-- A larger number names none (R246). -/
theorem setKey_of_ge {key : Byte} (h : 15 < key.toNat) (down : Bool) (s : State) :
    setKey key down s = (s, .err .invalidKeycode) :=
  dif_neg (Nat.not_lt.mpr h)

/-- A key after one was pressed or released. -/
theorem State.keyDown_setKeys_set (s : State) (k j : Fin 16) (down : Bool) :
    (s.setKeys (s.keys.set k down)).keyDown j = if j = k then down else s.keyDown j := by
  simp only [State.keyDown, State.setKeys_keys, Fin.getElem_fin, Vector.getElem_set, Fin.val_inj, eq_comm]

/-- The host sets one key to `down` and changes nothing else. -/
theorem setKey_sets_one_key {o : HostOp} {s : State} {key : Byte} {k : Fin 16} {down : Bool}
    (ho : perform o s = .next (setKey key down s)) (h : key.toNat = k.val) :
    ∃ t, perform o s = .next (t, .ok) ∧ t.keyDown k = down ∧ (∀ j, j ≠ k → t.keyDown j = s.keyDown j) ∧
      Frame [.keys] s t := by
  refine ⟨_, by rw [ho, setKey_of_lt h], ?_, fun j hj => ?_, frame_setKeys s _⟩
  · rw [State.keyDown_setKeys_set, if_pos rfl]
  · rw [State.keyDown_setKeys_set, if_neg hj]

/-- Settles O59: both operations are `setKey`. -/
theorem pressAndRelease : Obligations.PressAndRelease := by
  refine fun key s => ⟨fun k hk => ⟨setKey_sets_one_key rfl hk, setKey_sets_one_key rfl hk⟩, fun h => ⟨?_, ?_⟩⟩
  · exact congrArg Host.Outcome.next (setKey_of_ge h true s)
  · exact congrArg Host.Outcome.next (setKey_of_ge h false s)

/-- A word of the disassembled program (R220). -/
theorem disassembled_getElem? (s : State) {k : Nat} (h : k < 1792) :
    s.disassembled[k]? = some (s.readByte (0x200 + 2 * k) ++ s.readByte (0x201 + 2 * k)) := by
  rw [State.disassembled, List.getElem?_map, List.getElem?_range h, Option.map_some, State.listedWord, State.wordAt,
    progBase, Nat.add_right_comm]
  rfl

/-- Settles O60: none of the four writes the state. -/
theorem observationsOnlyRead : Obligations.ObservationsOnlyRead := by
  refine fun s => ⟨⟨_, rfl, ?_, fun k => ?_⟩, rfl, rfl, ⟨_, rfl, ?_, fun k hk => disassembled_getElem? s hk⟩⟩
  · simp [State.snapshot]
  · simp [State.snapshot]
  · simp [State.disassembled]

end Sys2Proof.Machine
end

section
/-! PROOFS. The sprite statements (`40_display.md` R101 to R103) and the scroll statements (`45_superchip.md` R190,
R191), pixel by pixel. -/

namespace Sys2Proof.Machine

/-! ## Sprites -/

/-- The meaning of DXYN within bounds (R101). -/
theorem exec_drw_of_drawable {s : State} {y : Reg} {n : BitVec 4} (h : s.drawable y n) (x : Reg) :
    exec (.drw x y n) s = .next (s.drawn x y n) := by
  obtain ⟨hmem, hrows⟩ := h
  rw [exec_drw, needBytes_of_inside (by omega)]
  exact if_neg hrows

/-- DXYN answers a next state only within bounds, and that state is the drawn one. -/
theorem exec_drw_eq_next {s t : State} {x y : Reg} {n : BitVec 4} (h : exec (.drw x y n) s = .next t) :
    s.drawable y n ∧ t = s.drawn x y n := by
  rw [exec_drw, needBytes_eq_next] at h
  obtain ⟨hmem, hnext⟩ := h
  split at hnext
  case isTrue => cases hnext
  case isFalse hrows =>
    cases hnext
    exact ⟨⟨by omega, hrows⟩, rfl⟩

/-- The sprite's pixels, in the words of the statements and in those of the drawing. -/
theorem spriteLit_iff {s : State} {x y : Reg} {n : BitVec 4} {c r : Nat} :
    s.spriteLit x y n c r ↔ spritePixel s (startColumn (s.reg x)) (startRow (s.reg y)) n.toNat c r := by
  simp only [State.spriteLit, spritePixel, rowPixel, Bool.and_eq_true, decide_eq_true_eq, true_and, and_assoc]

/-- A drawn pixel is the old one XORed with the sprite's (R102). -/
theorem drawn_pixel (s : State) (x y : Reg) (n : BitVec 4) {c r : Nat} (hc : c < 64) :
    (s.drawn x y n).pixel c r = true ↔ ¬ (s.pixel c r = true ↔ s.spriteLit x y n c r) := by
  rw [spriteLit_iff]
  exact drawSprite_pixel s (startColumn_lt _) (startRow_lt _) (Nat.le_of_lt n.isLt) hc

/-- VF after a sprite: a lit pixel met a sprite bit 1 (R102). -/
theorem drawn_reg_vf (s : State) (x y : Reg) (n : BitVec 4) :
    (s.drawn x y n).reg vf = 1 ↔ ∃ c r, c < 64 ∧ r < 32 ∧ s.pixel c r = true ∧ s.spriteLit x y n c r := by
  simp only [spriteLit_iff]
  rw [State.drawn, State.reg_setFlag, if_pos rfl, flagByte_eq_one]
  exact drawSprite_hit s (startColumn_lt _) (startRow_lt _) (Nat.le_of_lt n.isLt)

/-- A sprite writes no register but VF. -/
theorem regFrame_drawn (s : State) (x y : Reg) (n : BitVec 4) : RegFrame [vf] s (s.drawn x y n) :=
  regFrame_setReg (s.setFB _) vf _

/-- Settles O26: DXYN is the twenty-third row of the base table, and it draws the sprite row by row. -/
theorem drwXorsPixels : Obligations.DrwXorsPixels := by
  refine ⟨encodedAs_of_mem_baseTable (List.mem_of_getElem? (i := 22) rfl), fun x y n s h =>
    ⟨_, exec_drw_of_drawable h x, fun c r hc _ => drawn_pixel s x y n hc, ?_, drawn_reg_vf s x y n,
      regFrame_drawn s x y n, (frame_drawn s x y n).mono (by simp)⟩⟩
  rw [State.drawn, State.reg_setFlag, if_pos rfl]
  exact flagByte_zero_or_one _

/-- Settles O27: the two causes of DXYN's fault. -/
theorem drwFaultsOutOfRange : Obligations.DrwFaultsOutOfRange := by
  refine fun x y n s => ⟨fun h1 h2 => ?_, fun hmem hover hbelow => ?_⟩
  · exact exec_of_faultCause (.inl ⟨h1, h2, rfl⟩)
  · exact exec_of_faultCause (.inr ⟨by omega, hover, hbelow, rfl⟩)

/-- Frame buffers with the same pixels are equal. -/
theorem FrameBuffer.ext_fbPixel {fb gb : FrameBuffer}
    (h : ∀ c r, c < 64 → r < 32 → fbPixel fb c r = fbPixel gb c r) : fb = gb := by
  apply FrameBuffer.ext_fbGet
  intro o ho
  apply BitVec.eq_of_getLsbD_eq
  intro k hk
  have hpixel := h (o % 8 * 8 + (7 - k)) (o / 8) (by omega) (by omega)
  simp only [fbPixel, show o / 8 * 8 + (o % 8 * 8 + (7 - k)) / 8 = o by omega,
    show 7 - (o % 8 * 8 + (7 - k)) % 8 = k by omega] at hpixel
  exact hpixel

/-- A sprite drawn from registers other than VF is the same sprite afterwards: drawing writes neither its bytes nor its
coordinates. -/
theorem spriteLit_drawn {s : State} {x y : Reg} (hx : x ≠ vf) (hy : y ≠ vf) (n m : BitVec 4) (c r : Nat) :
    (s.drawn x y n).spriteLit x y m c r ↔ s.spriteLit x y m c r := by
  have hregs := regFrame_drawn s x y n
  simp only [State.spriteLit, hregs x (by simpa using hx), hregs y (by simpa using hy)]
  exact Iff.rfl

/-- Settles O28: the second draw XORs every pixel with the same sprite bit as the first, and it meets a lit pixel
exactly where the first draw lit a dark one. -/
theorem drawingTwiceRestores : Obligations.DrawingTwiceRestores := by
  intro x y n s t u hx hy ht hu
  obtain ⟨-, rfl⟩ := exec_drw_eq_next ht
  obtain ⟨-, rfl⟩ := exec_drw_eq_next hu
  constructor
  · apply FrameBuffer.ext_fbPixel
    intro c r hc hr
    have hsecond := drawn_pixel (s.drawn x y n) x y n (r := r) hc
    rw [spriteLit_drawn hx hy, drawn_pixel s x y n hc] at hsecond
    rw [Bool.eq_iff_iff]
    exact hsecond.trans (by tauto)
  · rw [drawn_reg_vf]
    refine exists_congr fun c => exists_congr fun r => and_congr_right fun hc => and_congr_right fun _ => ?_
    rw [spriteLit_drawn hx hy, drawn_pixel s x y n hc, ← Bool.not_eq_true]
    tauto

/-! ## Scrolls -/

/-- The meaning of 00CN (R190). -/
theorem exec_scd (n : BitVec 4) (s : State) : exec (.scd n) s = .next (s.setFB (scrolledDown s.FB n.toNat)) := rfl

/-- The meaning of 00FB (R191). -/
theorem exec_scr (s : State) : exec .scr s = .next (s.setFB (scrolledRight s.FB)) := rfl

/-- A pixel of the buffer scrolled down: the byte 8 `n` further up is the byte of the same column `n` rows up. -/
theorem fbPixel_scrolledDown (fb : FrameBuffer) (n : Nat) {c r : Nat} (hc : c < 64) (hr : r < 32) :
    fbPixel (scrolledDown fb n) c r = if r < n then false else fbPixel fb c (r - n) := by
  rw [fbPixel, scrolledDown, fbGet_tabulate _ (by omega)]
  dsimp only
  by_cases h : r < n
  · rw [if_pos h, if_pos (by omega)]
    exact BitVec.getLsbD_zero
  · rw [if_neg h, if_neg (by omega), fbPixel, show r * 8 + c / 8 - 8 * n = (r - n) * 8 + c / 8 by omega]

/-- Settles O52: 00CN is the first row of the SUPER-CHIP table. -/
theorem scrollDownShiftsRows : Obligations.ScrollDownShiftsRows :=
  ⟨encodedAsSchip_of_mem_schipTable (List.mem_of_getElem? (i := 0) rfl), fun n s =>
    ⟨_, exec_scd n s, fun _ _ hc hr => fbPixel_scrolledDown s.FB n.toNat hc hr, frame_setFB s _⟩⟩

/-- The right half of a byte moved into its left half, bit by bit. -/
theorem lowNibble_shiftLeft_getLsbD (b : Byte) {k : Nat} (hk : k < 8) :
    ((b &&& 0x0F) <<< 4).getLsbD k = (decide (4 ≤ k) && b.getLsbD (k - 4)) := by
  rw [BitVec.getLsbD_shiftLeft, BitVec.getLsbD_and]
  interval_cases k <;> simp

/-- A pixel of the buffer scrolled right: in the right half of a byte it comes from the left half of the same byte, in
the left half from the right half of the left neighbour, unless the byte begins its row. -/
theorem fbPixel_scrolledRight (fb : FrameBuffer) {c r : Nat} (hc : c < 64) (hr : r < 32) :
    fbPixel (scrolledRight fb) c r = if c < 4 then false else fbPixel fb (c - 4) r := by
  have hlost : ∀ b : Byte, c % 8 < 4 → b.getLsbD (4 + (7 - c % 8)) = false := fun b h =>
    BitVec.getLsbD_of_ge _ _ (by omega)
  rw [fbPixel, scrolledRight, fbGet_tabulate _ (by omega)]
  dsimp only
  by_cases hfirst : c / 8 = 0
  · rw [if_pos (by omega), BitVec.getLsbD_ushiftRight]
    by_cases h : c < 4
    · rw [if_pos h, hlost _ (by omega)]
    · rw [if_neg h, fbPixel, show (c - 4) / 8 = c / 8 by omega, show 7 - (c - 4) % 8 = 4 + (7 - c % 8) by omega]
  · rw [if_neg (by omega), if_neg (by omega), BitVec.getLsbD_or, BitVec.getLsbD_ushiftRight,
      lowNibble_shiftLeft_getLsbD _ (by omega), fbPixel]
    by_cases h : c % 8 < 4
    · rw [hlost _ h, decide_eq_true (show 4 ≤ 7 - c % 8 by omega), Bool.false_or, Bool.true_and,
        show r * 8 + (c - 4) / 8 = r * 8 + c / 8 - 1 by omega, show 7 - (c - 4) % 8 = 7 - c % 8 - 4 by omega]
    · rw [decide_eq_false (show ¬ 4 ≤ 7 - c % 8 by omega), Bool.false_and, Bool.or_false,
        show (c - 4) / 8 = c / 8 by omega, show 7 - (c - 4) % 8 = 4 + (7 - c % 8) by omega]

/-- Settles O53: 00FB is the second row of the SUPER-CHIP table. -/
theorem scrollRightShiftsPixels : Obligations.ScrollRightShiftsPixels :=
  ⟨encodedAsSchip_of_mem_schipTable (List.mem_of_getElem? (i := 1) rfl), fun s =>
    ⟨_, exec_scr s, fun _ _ hc hr => fbPixel_scrolledRight s.FB hc hr, frame_setFB s _⟩⟩

end Sys2Proof.Machine
end
